-- ==== Sys2Proof/Word.lean ====
section
/-! DEFINITION. The word types of the block and the three plain data types its registers and trace are made of. -/

namespace Sys2Proof

/-- A byte: 8 bits, unsigned unless said otherwise (00_scope.md R12). -/
abbrev Byte := BitVec 8

/-- A sensor register address: 7 bits (20_memory.md R58). -/
abbrev Addr := BitVec 7

/-- A 16-bit value: one axis of a motion sample, an image length, the two bytes of a WRITE frame. -/
abbrev Half := BitVec 16

/-- A host command word: 32 bits (30_encoding.md R84). -/
abbrev Word := BitVec 32

/-- The level of the chip-select pin (10_state.md R25). No rule depends on the electrical level. -/
inductive ChipSelect where
  | asserted
  | deasserted
  deriving DecidableEq, Repr, Inhabited

/-- The burst receive buffer `BUF[0..5]` (10_state.md R22), in arrival order: `b0` motion-status,
`b1` observation, `b2` X-low, `b3` X-high, `b4` Y-low, `b5` Y-high. -/
structure BurstBuf where
  b0 : Byte
  b1 : Byte
  b2 : Byte
  b3 : Byte
  b4 : Byte
  b5 : Byte
  deriving DecidableEq, Repr, Inhabited

/-- One event of the trace (00_scope.md R14). -/
inductive Event where
  /-- chip select asserted -/
  | sel
  /-- chip select deasserted -/
  | desel
  /-- one byte exchanged: `out` driven by the block, `inn` supplied by the device -/
  | xfer (out inn : Byte)
  /-- a wait of `us` microseconds -/
  | wait (us : Nat)
  /-- image byte `i` read as `b` -/
  | img (i : Nat) (b : Byte)
  /-- the millisecond clock read as `t` -/
  | now (t : Nat)
  /-- `v` emitted to the diagnostic sink -/
  | diag (v : Nat)
  deriving DecidableEq, Repr

end Sys2Proof
end

