-- ==== Sys2Proof/Config.lean ====
section
/-! DEFINITION. The instantiation parameters of the block (00_scope.md R7 to R11), the test configuration TC0,
and the free values: opaque constants about which nothing can be proved. -/

namespace Sys2Proof

/-- The parameters fixed when the block is instantiated. No command, no reset and no bus event changes one
(00_scope.md R7). Delays are in microseconds. -/
structure Config where
  -- the delay table, R7
  tRdSettle : Nat
  tRdHold : Nat
  tRdGap : Nat
  tWrHold : Nat
  tWrGap : Nat
  tReset : Nat
  tSromEnGap : Nat
  tLoadCmd : Nat
  tLoadByte : Nat
  tLoadEnd : Nat
  tUploadEnd : Nat
  tBurstSettle : Nat
  tBurstGap : Nat
  /-- `SCAN_WINDOW_MS`, in milliseconds -/
  scanWindowMs : Nat
  -- the sensor register addresses and the two raw command bytes, R8
  regProductId : Addr
  regRevisionId : Addr
  regMotion : Addr
  regDeltaXL : Addr
  regDeltaXH : Addr
  regDeltaYL : Addr
  regDeltaYH : Addr
  regCpi : Addr
  regConfig : Addr
  regSromEnable : Addr
  regSromId : Addr
  regPowerReset : Addr
  regMotionBurst : Addr
  cmdBurstRead : Byte
  cmdSromLoad : Byte
  -- the data constants, R9
  productIdExpect : Byte
  revisionIdExpect : Byte
  powerResetMagic : Byte
  initConfigValue : Byte
  uploadConfigBaseline : Byte
  uploadConfigReset : Byte
  sromUnlock : Byte
  sromConfirm : Byte
  burstEntryValue : Byte
  cpiMax : Byte
  motionMask : Byte
  motionExpect : Byte
  fillByte : Byte
  -- widths and options, R10
  timerW : Nat
  countW : Nat
  hasInstr : Bool
  -- serial parameters that no rule reads, 20_memory.md R50
  spiMode : Nat
  spiClkHz : Nat
  spiMsbFirst : Bool
  deriving DecidableEq, Repr

/-- The constraints R11 (a) to (c) on a configuration; (d) holds by the type `Addr`. -/
def Config.ok (c : Config) : Bool :=
  c.motionMask.getLsbD 7 && c.motionExpect.getLsbD 7 && (c.motionExpect &&& ~~~c.motionMask == 0)
    && [c.regMotion, c.regDeltaXL, c.regDeltaXH, c.regDeltaYL, c.regDeltaYH, c.regCpi, c.regProductId,
        c.regRevisionId, c.regSromId].all (fun r => r != c.regMotionBurst)

/-- The test configuration TC0: the nominal delays of R7 and the TC0 columns of R8, R9, R10. PRESUMED: every
address and every constant but the two identity bytes is the spec's general knowledge, not its source (log 1). -/
def Config.tc0 : Config where
  tRdSettle := 160
  tRdHold := 1
  tRdGap := 19
  tWrHold := 35
  tWrGap := 180
  tReset := 50000
  tSromEnGap := 10
  tLoadCmd := 15
  tLoadByte := 15
  tLoadEnd := 200
  tUploadEnd := 10000
  tBurstSettle := 35
  tBurstGap := 1
  scanWindowMs := 1000
  regProductId := 0x00
  regRevisionId := 0x01
  regMotion := 0x02
  regDeltaXL := 0x03
  regDeltaXH := 0x04
  regDeltaYL := 0x05
  regDeltaYH := 0x06
  regCpi := 0x0F
  regConfig := 0x10
  regSromEnable := 0x13
  regSromId := 0x2A
  regPowerReset := 0x3A
  regMotionBurst := 0x50
  cmdBurstRead := 0x50
  cmdSromLoad := 0xE2
  productIdExpect := 0x42
  revisionIdExpect := 0x01
  powerResetMagic := 0x5A
  initConfigValue := 0x00
  uploadConfigBaseline := 0x00
  uploadConfigReset := 0x00
  sromUnlock := 0x1D
  sromConfirm := 0x18
  burstEntryValue := 0x00
  cpiMax := 0x77
  motionMask := 0x88
  motionExpect := 0x80
  fillByte := 0x00
  timerW := 32
  countW := 32
  hasInstr := true
  spiMode := 3
  spiClkHz := 2000000
  spiMsbFirst := true

/-- What the registers without a reset value hold after a reset (10_state.md section 5: "unspecified"). -/
structure ResetValues where
  sromId : Byte
  buf : BurstBuf
  sampleX : Half
  sampleY : Half
  resOk : Bool
  resByte : Byte
  resRate : Nat
  cmdreg : Word
  deriving DecidableEq, Repr, Inhabited

/-- Free value: the byte the device drives in exchange number `n`, where `State.dev` lists none
(20_memory.md R66: "a free input of the step"). Log 3. -/
opaque Config.freeByte : Nat → Byte

/-- Free value: what the image port answers at read number `n`, where the host presents no byte at the index. Log 5. -/
opaque Config.freeImageByte : Nat → Byte

/-- Free value: the millisecond clock at reading number `n`, where `State.clk` lists none (44_instrumentation.md R171). Log 4. -/
opaque Config.freeClock : Nat → Nat

/-- Free value: what the registers without a reset value hold after reset number `n` (70_reset_and_hazards.md R200). Log 2. -/
opaque Config.freeReset : Nat → ResetValues

end Sys2Proof
end

