-- ==== Sys2Proof/Syntax.lean ====
section
/-! DEFINITION. The instructions: the nine host commands and the four wire frames of opcode_table.json, and the
requests they are encoded as. -/

namespace Sys2Proof

/-- One constructor per row of opcode_table.json. Operand widths are 30_encoding.md R85. -/
inductive Instr where
  /-- RDREG `A` (41_register_access.md R130) -/
  | rdreg (a : Addr)
  /-- WRREG `A, D` (41_register_access.md R131) -/
  | wrreg (a : Addr) (d : Byte)
  /-- GETCPI (42_sensor_control.md R140) -/
  | getcpi
  /-- SETCPI `D` (42_sensor_control.md R141) -/
  | setcpi (d : Byte)
  /-- INIT (42_sensor_control.md R142) -/
  | init
  /-- UPLOAD `N` (42_sensor_control.md R143) -/
  | upload (n : Half)
  /-- RDMOT (43_motion_reader.md R160) -/
  | rdmot
  /-- RDBURST (43_motion_reader.md R161) -/
  | rdburst
  /-- SCANRATE (44_instrumentation.md R173) -/
  | scanrate
  /-- WIRE.READ: a READ frame alone (20_memory.md R53) -/
  | wireRead (a : Addr)
  /-- WIRE.WRITE: a WRITE frame alone (20_memory.md R54) -/
  | wireWrite (a : Addr) (d : Byte)
  /-- WIRE.BURST_READ: a BURST-READ frame alone (20_memory.md R55) -/
  | wireBurstRead
  /-- WIRE.SROM_LOAD: an SROM-LOAD frame alone, of `n` image bytes (20_memory.md R56) -/
  | wireSromLoad (n : Half)
  deriving DecidableEq, Repr

/-- What the master does after the first byte of a one-byte frame encoding. The byte does not say it ("nothing in
a frame states its length", 30_encoding.md R83), so the request does. -/
inductive Follow where
  /-- one receive: a READ frame -/
  | oneReceive
  /-- six receives: a BURST-READ frame -/
  | sixReceives
  /-- `n` image bytes: an SROM-LOAD frame -/
  | imageBytes (n : Half)
  deriving DecidableEq, Repr

/-- An encoded instruction. `command` is the one thing the host can present (30_encoding.md R84); the two frame
forms are the wire rows of opcode_table.json, run alone (log 8). -/
inductive Request where
  /-- a 32-bit host command word -/
  | command (w : Word)
  /-- the first byte of a frame, and what follows it -/
  | frame8 (b : Byte) (k : Follow)
  /-- the two bytes of a WRITE frame, the address byte in bits 15:8 (30_encoding.md R81) -/
  | frame16 (h : Half)
  deriving DecidableEq, Repr

/-- Why a request decodes to no instruction (30_encoding.md R86, R87). -/
inductive Reject where
  /-- `OP` is 0x0 or 0xA to 0xF -/
  | reservedOp
  /-- `OP` is defined, and a bit that must be zero (`Z` or `ARG`) is set -/
  | mustBeZero
  /-- SCANRATE without the Performance Instrumentation (R87) -/
  | noInstrumentation
  /-- a one-byte frame with one receive whose direction bit says write (R80) -/
  | readNeedsBit7Clear
  /-- a frame with six receives whose byte is not `CMD_BURST_READ` (R82) -/
  | notBurstRead
  /-- a frame with image bytes whose byte is not `CMD_SROM_LOAD` (R82) -/
  | notSromLoad
  /-- a two-byte frame whose direction bit says read (R80) -/
  | writeNeedsBit7Set
  deriving DecidableEq, Repr

end Sys2Proof
end

