-- ==== Sys2Proof/Decode.lean ====
section
/-! DEFINITION. Decoding a request to an instruction, total and rejecting by name (30_encoding.md R80 to R88), and the
encoder, written from the same tables. -/

namespace Sys2Proof

/-- Operand `A = cmd[14:8]` (30_encoding.md R85). -/
def opA (w : Word) : Addr := w.extractLsb' 8 7

/-- Operand `D = cmd[7:0]` (30_encoding.md R85). -/
def opD (w : Word) : Byte := w.extractLsb' 0 8

/-- Operand `N = cmd[15:0]` (30_encoding.md R85). -/
def opN (w : Word) : Half := w.extractLsb' 0 16

/-- A command word selects the row whose fixed bits it has (30_encoding.md R84); each test below is the row's
"fixed" entry in opcode_table.json. A word of no row is reserved (R86). -/
def decodeCommand (c : Config) (w : Word) : Except Reject Instr :=
  if w.extractLsb' 15 17 = 0x2000 ∧ w.extractLsb' 0 8 = 0 then .ok (.rdreg (opA w))
  else if w.extractLsb' 15 17 = 0x4000 then .ok (.wrreg (opA w) (opD w))
  else if w = 0x30000000 then .ok .getcpi
  else if w.extractLsb' 8 24 = 0x400000 then .ok (.setcpi (opD w))
  else if w = 0x50000000 then .ok .init
  else if w.extractLsb' 16 16 = 0x6000 then .ok (.upload (opN w))
  else if w = 0x70000000 then .ok .rdmot
  else if w = 0x80000000 then .ok .rdburst
  else if w = 0x90000000 then (if c.hasInstr then .ok .scanrate else .error .noInstrumentation)
  else if w.extractLsb' 28 4 = 0 ∨ 0x9 < w.extractLsb' 28 4 then .error .reservedOp
  else .error .mustBeZero

/-- The first byte of a frame with what follows it: bit 7 is the direction and bits 6:0 the address of a READ
(30_encoding.md R80); the raw bytes are the parameters, as configured (R82). -/
def decodeFrame8 (c : Config) (b : Byte) : Follow → Except Reject Instr
  | .oneReceive => if b.getLsbD 7 then .error .readNeedsBit7Clear else .ok (.wireRead (b.extractLsb' 0 7))
  | .sixReceives => if b = c.cmdBurstRead then .ok .wireBurstRead else .error .notBurstRead
  | .imageBytes n => if b = c.cmdSromLoad then .ok (.wireSromLoad n) else .error .notSromLoad

/-- The two bytes of a WRITE frame (30_encoding.md R81). -/
def decodeFrame16 (h : Half) : Except Reject Instr :=
  if h.getLsbD 15 then .ok (.wireWrite (h.extractLsb' 8 7) (h.extractLsb' 0 8)) else .error .writeNeedsBit7Set

def decode (c : Config) : Request → Except Reject Instr
  | .command w => decodeCommand c w
  | .frame8 b k => decodeFrame8 c b k
  | .frame16 h => decodeFrame16 h

/-- First byte of a READ frame: `0b0 ++ a` (30_encoding.md R80, 45_cross_family_laws.md R175 row 1). -/
def readByte (a : Addr) : Byte := 0#1 ++ a

/-- First byte of a WRITE frame: `0b1 ++ a` (30_encoding.md R80, 45_cross_family_laws.md R175 row 1). -/
def writeByte (a : Addr) : Byte := 1#1 ++ a

/-- The word or frame of an instruction (30_encoding.md R80 to R84, R90). -/
def encode (c : Config) : Instr → Request
  | .rdreg a => .command (0x1#4 ++ 0#12 ++ 0#1 ++ a ++ 0#8)
  | .wrreg a d => .command (0x2#4 ++ 0#12 ++ 0#1 ++ a ++ d)
  | .getcpi => .command (0x3#4 ++ 0#12 ++ 0#16)
  | .setcpi d => .command (0x4#4 ++ 0#12 ++ 0#8 ++ d)
  | .init => .command (0x5#4 ++ 0#12 ++ 0#16)
  | .upload n => .command (0x6#4 ++ 0#12 ++ n)
  | .rdmot => .command (0x7#4 ++ 0#12 ++ 0#16)
  | .rdburst => .command (0x8#4 ++ 0#12 ++ 0#16)
  | .scanrate => .command (0x9#4 ++ 0#12 ++ 0#16)
  | .wireRead a => .frame8 (readByte a) .oneReceive
  | .wireWrite a d => .frame16 (writeByte a ++ d)
  | .wireBurstRead => .frame8 c.cmdBurstRead .sixReceives
  | .wireSromLoad n => .frame8 c.cmdSromLoad (.imageBytes n)

/-- The request that stands for the bits `w` of an opcode-table row of `nbits` bits. A row of 8 bits is a frame's
first byte, of which the byte alone does not say what follows: the two raw bytes of the configuration are read as
their own frames (an SROM-LOAD of no image byte, since the table gives its length no bits), every other byte as a
READ or nothing (log 8). A row of 16 bits is a WRITE frame, numbered as the table numbers it (log 20). -/
def tableRequest (c : Config) (nbits w : Nat) : Request :=
  if nbits = 8 then
    (if BitVec.ofNat 8 w = c.cmdSromLoad then .frame8 (BitVec.ofNat 8 w) (.imageBytes 0)
     else if BitVec.ofNat 8 w = c.cmdBurstRead then .frame8 (BitVec.ofNat 8 w) .sixReceives
     else .frame8 (BitVec.ofNat 8 w) .oneReceive)
  else if nbits = 16 then .frame16 (BitVec.ofNat 16 w)
  else .command (BitVec.ofNat 32 w)

/-- The instruction the decoder reads from a table row's bits, in the configuration of `State.reset`. -/
def decodeTableWord (nbits w : Nat) : Option Instr :=
  (decode .tc0 (tableRequest .tc0 nbits w)).toOption

end Sys2Proof
end

