-- ==== Sys2Proof/Machine/State.lean ====
section
/-! DEFINITION. The state of the block as plain data, its outcomes, and the state after reset (10_state.md). -/

namespace Sys2Proof.Machine

/-- The block raises no exception, takes no trap and has no fault state (60_exceptions.md R180), so no constructor
stands here: no step of this model faults. Safe: an empty type allows no claim about a fault (log 18). -/
inductive Fault where
  deriving DecidableEq, Repr

/-- Why a step gives a request no transition. -/
inductive Refusal where
  /-- Raised by `exec` for an instruction without a meaning; no arm is left that raises it. Safe: the machine stops. -/
  | notModelled (mnemonic : String)
  /-- Raised by the sequencer for a reserved command word, or a frame byte that is no frame (30_encoding.md R86: "A model
  treats a reserved word as refused"), and by SCANRATE without instrumentation (R87). Safe: the hardware stays idle. -/
  | reserved (why : Reject)
  deriving DecidableEq, Repr

/-- The bytes on the image port, by index (20_memory.md R62), in one canonical form: see `Memory.wf`. -/
abbrev Memory := List Host.Cell

/-- One primitive of the sequencer (00_scope.md R13). `imgRead` and `imgSend` are the two halves of UPLOAD's loop body
up to its wait; `poll` is the whole of `Poll()` (log 16); `internal` touches nothing outside the block. -/
inductive Prim where
  | sel
  | desel
  | send (b : Byte)
  | recv
  | wait (us : Nat)
  | imgRead (i : Nat)
  | imgSend
  | poll
  | internal
  deriving DecidableEq, Repr

/-- A register transfer of the pseudocode, done in the same step as the primitive before it. -/
inductive Transfer where
  /-- `if a != REG_MOTION_BURST then BURST <- false` (41_register_access.md R130) -/
  | noteRead (a : Addr)
  /-- `BURST <- true` (43_motion_reader.md R161) -/
  | enterBurst
  /-- `RES_BYTE <-` the byte received last (R130, R140) -/
  | resByte
  /-- `SROM_ID <-` the byte received last (42_sensor_control.md R143) -/
  | sromId
  /-- `RES_OK <-` both identity bytes match (R142) -/
  | identity
  /-- on a failed motion test, `RES_OK <- false` and the command ends (R160) -/
  | motionTest
  /-- `SAMPLE_X/Y` from the last four bytes received, `RES_OK <- true` (R160) -/
  | discreteSample
  /-- `BUF[k] <-` the byte received last (R161) -/
  | storeBuf (k : Nat)
  /-- `SAMPLE_X/Y` from `BUF`, `RES_OK <- true` (R161) -/
  | burstSample
  /-- `RES_RATE <- SCAN_SNAPSHOT` (R173) -/
  | resRate
  deriving DecidableEq, Repr

/-- One step of the sequencer: a primitive and the register transfers that go with it. -/
structure Micro where
  prim : Prim
  post : List Transfer
  deriving DecidableEq, Repr

/-- `SEQ` (10_state.md R30). `run k rest rx`: the next primitive has position `k`; `rest` is that primitive and the ones
after it; `rx` holds the bytes received so far and not yet used up, newest first. -/
inductive Seq where
  | idle
  | run (k : Nat) (rest : List Micro) (rx : List Byte)
  deriving DecidableEq, Repr

/-- How much one step of the model does; 10_state.md R30 allows both and says they agree (log 6). -/
inductive Grain where
  /-- an accepted command runs to completion in the step that accepts it -/
  | command
  /-- a step accepts a command or runs one primitive -/
  | primitive
  deriving DecidableEq, Repr

/-- What the host drives during one step (60_exceptions.md R193): the reset pin, a request (`cmd_valid = 1`) if any, and
new image bytes if it changes them. -/
structure Drive where
  rst : Bool
  request : Option Request
  image : Option (List Byte)
  deriving DecidableEq, Repr

/-- The host drives nothing. -/
def Drive.quiet : Drive := { rst := false, request := none, image := none }

/-- The host presents a request. -/
def Drive.present (r : Request) : Drive := { rst := false, request := some r, image := none }

/-- The host asserts `rst`. -/
def Drive.reset : Drive := { rst := true, request := none, image := none }

/-- The state. The first group is the spec's; `cfg` is the configuration, which no step changes; the last group is the
environment as the model's own plain data (INVENTORY.md). -/
structure State where
  /-- `BURST`, R20 -/
  burst : Bool
  /-- `SROM_ID`, R21 -/
  sromId : Byte
  /-- `BUF[0..5]`, R22 -/
  buf : BurstBuf
  /-- `SAMPLE_X`, R23 -/
  sampleX : Half
  /-- `SAMPLE_Y`, R23 -/
  sampleY : Half
  /-- `SCAN_COUNT`, R24, `COUNT_W` bits -/
  scanCount : Nat
  /-- `SCAN_SNAPSHOT`, R24, `COUNT_W` bits -/
  scanSnapshot : Nat
  /-- `SCAN_LAST`, R24, `TIMER_W` bits -/
  scanLast : Nat
  /-- `CS`, R25 -/
  cs : ChipSelect
  /-- `RES_OK`, R26 -/
  resOk : Bool
  /-- `RES_BYTE`, R27 -/
  resByte : Byte
  /-- `RES_RATE`, R28, `COUNT_W` bits; the host sees it only with the instrumentation (`State.rateOutput`, log 11) -/
  resRate : Nat
  /-- `CMDREG`, R29 -/
  cmdreg : Word
  /-- `SEQ`, R30 -/
  seq : Seq
  /-- the event trace, oldest first (00_scope.md R14) -/
  trace : List Event
  /-- the instantiation parameters (00_scope.md R7 to R10) -/
  cfg : Config
  /-- the grain of a step (log 6) -/
  grain : Grain
  /-- what the host drives during the coming steps, one entry a step; past the end it drives nothing (log 7) -/
  drives : List Drive
  /-- the bytes on the image port (20_memory.md R62, log 5) -/
  image : Memory
  /-- how many image bytes have been read -/
  imgDrawn : Nat
  /-- the device's answers in the coming exchanges; past the end they are free values (20_memory.md R66, log 3) -/
  dev : List Byte
  /-- how many bytes have been exchanged -/
  devDrawn : Nat
  /-- the clock's values at the coming readings; past the end they are free values (44_instrumentation.md R171, log 4) -/
  clk : List Nat
  /-- how many times the clock has been read -/
  clkDrawn : Nat
  /-- how many times the registers without a reset value have been given free values (log 2) -/
  resets : Nat
  deriving DecidableEq, Repr

/-- The block right after reset, in the configuration TC0 (70_reset_and_hazards.md R200, 10_state.md section 5). The
registers whose reset value is "unspecified" hold the opaque free values of reset number 0 (log 2). -/
def State.reset : State where
  burst := false
  sromId := (Config.freeReset 0).sromId
  buf := (Config.freeReset 0).buf
  sampleX := (Config.freeReset 0).sampleX
  sampleY := (Config.freeReset 0).sampleY
  scanCount := 0
  scanSnapshot := 0
  scanLast := 0
  cs := .deasserted
  resOk := (Config.freeReset 0).resOk
  resByte := (Config.freeReset 0).resByte
  resRate := (Config.freeReset 0).resRate % 2 ^ Config.tc0.countW
  cmdreg := (Config.freeReset 0).cmdreg
  seq := .idle
  trace := []
  cfg := .tc0
  grain := .command
  drives := []
  image := []
  imgDrawn := 0
  dev := []
  devDrawn := 0
  clk := []
  clkDrawn := 0
  resets := 1

end Sys2Proof.Machine
end

