-- ==== Sys2Proof/Machine/Flags.lean ====
section
/-! DEFINITION. Every flag and every condition the block computes (45_cross_family_laws.md R175 rows 2, 4, 5, 7, 8). -/

namespace Sys2Proof.Machine

/-- `BURST` after a read of `a`: false unless `a` is the motion-burst register (41_register_access.md R130). -/
def burstAfterRead (c : Config) (a : Addr) (burst : Bool) : Bool := if a ≠ c.regMotionBurst then false else burst

/-- INIT's result: both identity bytes equal, all 8 bits compared (42_sensor_control.md R142). -/
def identityOk (c : Config) (pid rev : Byte) : Bool := pid == c.productIdExpect && rev == c.revisionIdExpect

/-- RDMOT's test passes: the masked status equals the expected pattern (43_motion_reader.md R160, conflict C5). -/
def motionSeen (c : Config) (st : Byte) : Bool := (st &&& c.motionMask) == c.motionExpect

/-- `(now - last) mod 2^TIMER_W`, the wraparound-safe difference (44_instrumentation.md R170). -/
def clockDiff (c : Config) (now last : Nat) : Nat := (now + 2 ^ c.timerW - last % 2 ^ c.timerW) % 2 ^ c.timerW

/-- The scan-rate window closes (44_instrumentation.md R170). -/
def windowCloses (c : Config) (now last : Nat) : Bool := decide (c.scanWindowMs ≤ clockDiff c now last)

/-- `SCAN_COUNT + 1` modulo `2^COUNT_W` (R175 row 7). -/
def nextCount (c : Config) (n : Nat) : Nat := (n + 1) % 2 ^ c.countW

end Sys2Proof.Machine
end

