-- ==== Sys2Proof/Machine/Memory.lean ====
section
/-! DEFINITION. The image space (20_memory.md R62): bytes by index, read only for the block; the host presents them. -/

namespace Sys2Proof.Machine

/-- The image index is 16 bits wide (60_exceptions.md R189, `img_index[15:0]`). -/
def imageSpace : Nat := 65536

/-- The byte presented at index `i`, if any. An index that is not listed holds no byte (log 5). -/
def Memory.lookup (m : Memory) (i : Nat) : Option Byte :=
  match m with
  | [] => none
  | (a, b) :: rest => if a = i then some b else Memory.lookup rest i

/-- The canonical form from index `lo` on: indices strictly rising, none outside the image space. -/
def Memory.wfFrom (lo : Nat) : Memory → Bool
  | [] => true
  | (a, _) :: rest => decide (lo ≤ a) && decide (a < imageSpace) && Memory.wfFrom (a + 1) rest

/-- The canonical form. No entry can equal what an unlisted index reads as, since that is no byte at all. -/
def Memory.wf (m : Memory) : Bool := Memory.wfFrom 0 m

/-- The bytes `bs` at the indices from `i` on, as far as the image space goes. -/
def Memory.ofBytesFrom (i : Nat) : List Byte → Memory
  | [] => []
  | b :: bs => if i < imageSpace then (i, b) :: Memory.ofBytesFrom (i + 1) bs else []

/-- The host presents the byte sequence `bs`, byte `i` at index `i` ("an immutable byte sequence plus its length"). -/
def Memory.ofBytes (bs : List Byte) : Memory := Memory.ofBytesFrom 0 bs

end Sys2Proof.Machine
end

