-- ==== Sys2Proof/Machine/Operands.lean ====
section
/-! DEFINITION. The computations on operands and received bytes (45_cross_family_laws.md R175 rows 3, 6, 9). Operand
extraction and the two address bytes (rows 1 and R85) stand in Decode.lean. -/

namespace Sys2Proof.Machine

/-- `min(D, CPI_MAX)`, unsigned (42_sensor_control.md R141, R175 row 3). -/
def clampCpi (c : Config) (d : Byte) : Byte := if d ≤ c.cpiMax then d else c.cpiMax

/-- `hi ++ lo` (R175 row 6): the document's `x = low | (high << 8)`. -/
def joinBytes (hi lo : Byte) : Half := hi ++ lo

/-- `sint16(v)`: the two's-complement reading of a sample (00_scope.md R12). -/
def sint16 (v : Half) : Int := if v.toNat < 0x8000 then v.toNat else (v.toNat : Int) - 0x10000

/-- `BUF[k] <- b` (43_motion_reader.md R161); there is no `BUF[k]` for other `k`. -/
def setBuf (f : BurstBuf) (k : Nat) (b : Byte) : BurstBuf :=
  match k with
  | 0 => { f with b0 := b }
  | 1 => { f with b1 := b }
  | 2 => { f with b2 := b }
  | 3 => { f with b3 := b }
  | 4 => { f with b4 := b }
  | 5 => { f with b5 := b }
  | _ => f

end Sys2Proof.Machine
end

