-- ==== Sys2Proof/Machine/Ops.lean ====
section
/-! DEFINITION. The shared operations: the primitives (40_bus_transport.md, 20_memory.md R62, 44_instrumentation.md R171,
R172), the four frames (20_memory.md R53 to R56), the procedures `RdReg` and `WrReg` (41_register_access.md), the reset
(70_reset_and_hazards.md R200) and the outputs. There is no exception to take and none to return from
(60_exceptions.md R184, R185). -/

namespace Sys2Proof.Machine

/-- Append one event to the trace (00_scope.md R14). -/
def State.emit (s : State) (e : Event) : State := { s with trace := s.trace ++ [e] }

/-- `Sel()` (40_bus_transport.md R110): a plain level write, always recorded. -/
def State.sel (s : State) : State := { s with cs := .asserted, trace := s.trace ++ [.sel] }

/-- `Desel()` (40_bus_transport.md R111): a plain level write, always recorded. -/
def State.desel (s : State) : State := { s with cs := .deasserted, trace := s.trace ++ [.desel] }

/-- The `k`-th coming answer when `dev` lists the answers to come and `drawn` exchanges have been made: past the end of
the list a free value (20_memory.md R66). -/
def answerOf (dev : List Byte) (drawn k : Nat) : Byte :=
  match dev[k]? with
  | some b => b
  | none => Config.freeByte (drawn + k)

/-- The byte the device drives in the `k`-th exchange from here (20_memory.md R66). It depends on nothing the block
sent. -/
def State.answer (s : State) (k : Nat) : Byte := answerOf s.dev s.devDrawn k

/-- Exchange one byte (20_memory.md R50, R51): the answer, and the state after. It always completes. -/
def State.exchange (s : State) (out : Byte) : Byte × State :=
  (s.answer 0,
   { s with dev := s.dev.tail, devDrawn := s.devDrawn + 1, trace := s.trace ++ [.xfer out (s.answer 0)] })

/-- `Send(b)` (40_bus_transport.md R112): the byte received is discarded. -/
def State.send (s : State) (b : Byte) : State := (s.exchange b).2

/-- `Recv()` (40_bus_transport.md R113): `FILL_BYTE` is driven out. -/
def State.recv (s : State) : Byte × State := s.exchange s.cfg.fillByte

/-- `Wait_us(d)` (40_bus_transport.md R114): the nominal delay is recorded; no time passes in the model. -/
def State.waitUs (s : State) (d : Nat) : State := s.emit (.wait d)

/-- What the image port answers at index `i` in image read number `n`: the byte presented there, where there is none a
free value (20_memory.md R62, log 5). -/
def imageAnswer (m : Memory) (n i : Nat) : Byte :=
  match m.lookup i with
  | some b => b
  | none => Config.freeImageByte n

/-- What the image port answers at index `i` in the `k`-th image read from here. -/
def State.imageByte (s : State) (i k : Nat) : Byte := imageAnswer s.image (s.imgDrawn + k) i

/-- `ImgRead(i)` (20_memory.md R62). -/
def State.imgRead (s : State) (i : Nat) : Byte × State :=
  (s.imageByte i 0,
   { s with imgDrawn := s.imgDrawn + 1, trace := s.trace ++ [.img i (s.imageByte i 0)] })

/-- The `k`-th coming reading when `clk` lists the readings to come and `drawn` readings have been made: past the end of
the list a free value (44_instrumentation.md R171). -/
def readingOf (clk : List Nat) (drawn k : Nat) : Nat :=
  match clk[k]? with
  | some t => t
  | none => Config.freeClock (drawn + k)

/-- The clock's value at the `k`-th reading from here, `TIMER_W` bits (44_instrumentation.md R171). -/
def State.clockAt (s : State) (k : Nat) : Nat := readingOf s.clk s.clkDrawn k % 2 ^ s.cfg.timerW

/-- `Now_ms()` (44_instrumentation.md R171). -/
def State.nowMs (s : State) : Nat × State :=
  (s.clockAt 0,
   { s with clk := s.clk.tail, clkDrawn := s.clkDrawn + 1, trace := s.trace ++ [.now (s.clockAt 0)] })

/-- `Diag(v)` (44_instrumentation.md R172). -/
def State.diag (s : State) (v : Nat) : State := s.emit (.diag v)

/-- The flag update of `RdReg(a)` (41_register_access.md R130). -/
def State.noteRead (s : State) (a : Addr) : State := { s with burst := burstAfterRead s.cfg a s.burst }

/-- READ frame (20_memory.md R53): the byte sampled, and the state after. -/
def readFrame (a : Addr) (s : State) : Byte × State :=
  let s := s.sel
  let s := s.send (readByte a)
  let s := s.waitUs s.cfg.tRdSettle
  let r := s.recv
  let s := r.2.waitUs s.cfg.tRdHold
  (r.1, s.desel)

/-- WRITE frame (20_memory.md R54). -/
def writeFrame (a : Addr) (d : Byte) (s : State) : State :=
  let s := s.sel
  let s := s.send (writeByte a)
  let s := s.send d
  let s := s.waitUs s.cfg.tWrHold
  s.desel

/-- `BUF[k] <- Recv()` (43_motion_reader.md R161). -/
def State.recvBuf (s : State) (k : Nat) : State :=
  let r := s.recv
  { r.2 with buf := setBuf r.2.buf k r.1 }

/-- BURST-READ frame (20_memory.md R55); the six bytes land in `BUF` in arrival order (45_cross_family_laws.md R177). -/
def burstFrame (s : State) : State :=
  let s := s.sel
  let s := s.send s.cfg.cmdBurstRead
  let s := s.waitUs s.cfg.tBurstSettle
  let s := s.recvBuf 0
  let s := s.recvBuf 1
  let s := s.recvBuf 2
  let s := s.recvBuf 3
  let s := s.recvBuf 4
  let s := s.recvBuf 5
  s.desel

/-- One iteration of UPLOAD's loop (42_sensor_control.md R143): the byte is read, sent at once, and followed by its gap. -/
def sendImageByte (i : Nat) (s : State) : State :=
  let r := s.imgRead i
  let s := r.2.send r.1
  s.waitUs s.cfg.tLoadByte

/-- `n` iterations from index `i` on, ascending. -/
def sendImageBytes (n i : Nat) (s : State) : State :=
  match n with
  | 0 => s
  | n + 1 => sendImageBytes n (i + 1) (sendImageByte i s)

/-- SROM-LOAD frame (20_memory.md R56). -/
def sromFrame (n : Nat) (s : State) : State :=
  let s := s.sel
  let s := s.send s.cfg.cmdSromLoad
  let s := s.waitUs s.cfg.tLoadCmd
  let s := sendImageBytes n 0 s
  s.desel

/-- `RdReg(a)` (41_register_access.md R130): the byte returned, and the state after. -/
def rdReg (a : Addr) (s : State) : Byte × State :=
  let r := readFrame a s
  let s := r.2.waitUs r.2.cfg.tRdGap
  (r.1, s.noteRead a)

/-- `WrReg(a, d)` (41_register_access.md R131): `BURST` is not written, whatever `a` is. -/
def wrReg (a : Addr) (d : Byte) (s : State) : State :=
  let s := writeFrame a d s
  s.waitUs s.cfg.tWrGap

/-- Acceptance latches a command word in `CMDREG` (10_state.md R29, R33). A frame request is not a command word. -/
def State.latch (s : State) (r : Request) : State :=
  match r with
  | .command w => { s with cmdreg := w }
  | .frame8 _ _ => s
  | .frame16 _ => s

/-- What the host drives during this step. -/
def State.drive (s : State) : Drive := s.drives.headD .quiet

/-- The host's drive of this step is used up, and its new image bytes, if any, are on the port (20_memory.md R71). -/
def State.takeDrive (s : State) : State :=
  { s with
    drives := s.drives.tail
    image := match s.drive.image with
      | some bs => Memory.ofBytes bs
      | none => s.image }

/-- Reset (70_reset_and_hazards.md R200, R201): from any state, at once, with no event. The registers without a reset
value hold fresh free values (log 2). The configuration and the environment stay (log 12). -/
def State.applyReset (s : State) : State :=
  { s with
    burst := false
    sromId := (Config.freeReset s.resets).sromId
    buf := (Config.freeReset s.resets).buf
    sampleX := (Config.freeReset s.resets).sampleX
    sampleY := (Config.freeReset s.resets).sampleY
    scanCount := 0
    scanSnapshot := 0
    scanLast := 0
    cs := .deasserted
    resOk := (Config.freeReset s.resets).resOk
    resByte := (Config.freeReset s.resets).resByte
    resRate := (Config.freeReset s.resets).resRate % 2 ^ s.cfg.countW
    cmdreg := (Config.freeReset s.resets).cmdreg
    seq := .idle
    trace := []
    resets := s.resets + 1 }

/-- Output `busy` (10_state.md R30): 1 exactly when `SEQ` is not `IDLE`. -/
def State.busy (s : State) : Bool :=
  match s.seq with
  | .idle => false
  | .run _ _ _ => true

/-- Output `cmd_ready` (10_state.md R33). -/
def State.cmdReady (s : State) : Bool := !s.busy

/-- The outputs the host reads (10_state.md R35, 60_exceptions.md R189). The samples are read as signed numbers
(10_state.md R23). `resRate` is none where the configuration has no `RES_RATE`. -/
structure HostView where
  busy : Bool
  cmdReady : Bool
  resOk : Bool
  resByte : Byte
  resRate : Option Nat
  sampleX : Int
  sampleY : Int
  sromId : Byte
  deriving DecidableEq, Repr

/-- Output `res_rate`. `RES_RATE` "exists only when `HAS_INSTR` is true" (10_state.md R28), while 60_exceptions.md R189 lists the
port without a condition and gives it no value without the register. DESIGN CHOICE: the port then shows nothing, and the
field that State still holds is out of the host's sight (log 11). -/
def State.rateOutput (s : State) : Option Nat := if s.cfg.hasInstr then some s.resRate else none

/-- What the host sees. `BURST` and `BUF` are not among it (10_state.md R22, R35). -/
def State.hostView (s : State) : HostView where
  busy := s.busy
  cmdReady := s.cmdReady
  resOk := s.resOk
  resByte := s.resByte
  resRate := s.rateOutput
  sampleX := sint16 s.sampleX
  sampleY := sint16 s.sampleY
  sromId := s.sromId

end Sys2Proof.Machine
end

