-- ==== Sys2Proof/Machine/Instrumentation.lean ====
section
/-! DEFINITION. `Poll()` and SCANRATE (44_instrumentation.md). -/

namespace Sys2Proof.Machine

/-- `Poll()` (R170): count, read the clock, and close the window when it is due. Without the instrumentation it does
nothing and leaves no event. -/
def poll (s : State) : State :=
  if s.cfg.hasInstr then
    let s := { s with scanCount := nextCount s.cfg s.scanCount }
    let now := s.nowMs
    let s := now.2
    if windowCloses s.cfg now.1 s.scanLast then
      { s.diag s.scanCount with scanSnapshot := s.scanCount, scanCount := 0, scanLast := now.1 }
    else s
  else s

/-- SCANRATE (R173): `RES_RATE <- SCAN_SNAPSHOT`; a reserved word without the instrumentation (30_encoding.md R87). -/
def execScanrate (s : State) : Host.Outcome State Fault Refusal :=
  if s.cfg.hasInstr then .next { s with resRate := s.scanSnapshot } else .refused (.reserved .noInstrumentation)

end Sys2Proof.Machine
end

