-- ==== Sys2Proof/Machine/MotionReader.lean ====
section
/-! DEFINITION. RDMOT and RDBURST (43_motion_reader.md). -/

namespace Sys2Proof.Machine

/-- The rest of RDMOT once the motion test has passed (R160): the four delta registers in the fixed order. -/
def readDeltas (s : State) : State :=
  let c := s.cfg
  let xl := rdReg c.regDeltaXL s
  let xh := rdReg c.regDeltaXH xl.2
  let yl := rdReg c.regDeltaYL xh.2
  let yh := rdReg c.regDeltaYH yl.2
  { yh.2 with sampleX := joinBytes xh.1 xl.1, sampleY := joinBytes yh.1 yl.1, resOk := true }

/-- RDMOT (R160): poll, read the motion status, and read the deltas only if there is new motion. -/
def execRdmot (s : State) : Host.Outcome State Fault Refusal :=
  let s := poll s
  let st := rdReg s.cfg.regMotion s
  .next (if motionSeen s.cfg st.1 then readDeltas st.2 else { st.2 with resOk := false })

/-- RDBURST's one-time setup step (R161): the entry write, when the block does not believe in burst mode. -/
def enterBurst (s : State) : State :=
  if s.burst then s else { wrReg s.cfg.regMotionBurst s.cfg.burstEntryValue s with burst := true }

/-- RDBURST (R161): it always reports success and never inspects the first two bytes. -/
def execRdburst (s : State) : Host.Outcome State Fault Refusal :=
  let s := poll s
  let s := enterBurst s
  let s := burstFrame s
  let s := s.waitUs s.cfg.tBurstGap
  .next { s with sampleX := joinBytes s.buf.b3 s.buf.b2, sampleY := joinBytes s.buf.b5 s.buf.b4, resOk := true }

end Sys2Proof.Machine
end

