-- ==== Sys2Proof/Machine/RegisterAccess.lean ====
section
/-! DEFINITION. RDREG and WRREG (41_register_access.md). -/

namespace Sys2Proof.Machine

/-- RDREG (R130): `RES_BYTE <- RdReg(A)`. -/
def execRdreg (a : Addr) (s : State) : Host.Outcome State Fault Refusal :=
  let r := rdReg a s
  .next { r.2 with resByte := r.1 }

/-- WRREG (R131): `WrReg(A, D)`. -/
def execWrreg (a : Addr) (d : Byte) (s : State) : Host.Outcome State Fault Refusal :=
  .next (wrReg a d s)

end Sys2Proof.Machine
end

