-- ==== Sys2Proof/Machine/SensorControl.lean ====
section
/-! DEFINITION. GETCPI, SETCPI, INIT and UPLOAD (42_sensor_control.md). -/

namespace Sys2Proof.Machine

/-- GETCPI (R140): `RES_BYTE <- RdReg(REG_CPI)`, raw. -/
def execGetcpi (s : State) : Host.Outcome State Fault Refusal :=
  let r := rdReg s.cfg.regCpi s
  .next { r.2 with resByte := r.1 }

/-- SETCPI (R141): `WrReg(REG_CPI, min(D, CPI_MAX))`. -/
def execSetcpi (d : Byte) (s : State) : Host.Outcome State Fault Refusal :=
  .next (wrReg s.cfg.regCpi (clampCpi s.cfg d) s)

/-- INIT (R142): five reads are discarded, and both identity registers are always read. -/
def execInit (s : State) : Host.Outcome State Fault Refusal :=
  let c := s.cfg
  let s := s.sel
  let s := wrReg c.regPowerReset c.powerResetMagic s
  let s := s.waitUs c.tReset
  let s := (rdReg c.regMotion s).2
  let s := (rdReg c.regDeltaXL s).2
  let s := (rdReg c.regDeltaXH s).2
  let s := (rdReg c.regDeltaYL s).2
  let s := (rdReg c.regDeltaYH s).2
  let s := wrReg c.regConfig c.initConfigValue s
  let pid := rdReg c.regProductId s
  let rev := rdReg c.regRevisionId pid.2
  let s := rev.2.desel
  .next { s with resOk := identityOk c pid.1 rev.1 }

/-- UPLOAD (R143): `N` image bytes in the SROM-LOAD frame, then the SROM ID, which nothing checks. -/
def execUpload (n : Half) (s : State) : Host.Outcome State Fault Refusal :=
  let c := s.cfg
  let s := wrReg c.regConfig c.uploadConfigBaseline s
  let s := wrReg c.regSromEnable c.sromUnlock s
  let s := s.waitUs c.tSromEnGap
  let s := wrReg c.regSromEnable c.sromConfirm s
  let s := sromFrame n.toNat s
  let s := s.waitUs c.tLoadEnd
  let r := rdReg c.regSromId s
  let s := { r.2 with sromId := r.1 }
  let s := wrReg c.regConfig c.uploadConfigReset s
  .next (s.waitUs c.tUploadEnd)

end Sys2Proof.Machine
end

