-- ==== Sys2Proof/Machine/Wire.lean ====
section
/-! DEFINITION. The four wire rows of opcode_table.json: each frame alone, from its `Sel` to its `Desel`
(20_memory.md R53 to R56). The waits after a `Desel`, the flag updates and the results belong to the operations. -/

namespace Sys2Proof.Machine

/-- WIRE.READ (R53). The sampled byte goes to the operation that issued the frame; alone, it stands in the trace only
(log 8). -/
def execWireRead (a : Addr) (s : State) : Host.Outcome State Fault Refusal :=
  .next (readFrame a s).2

/-- WIRE.WRITE (R54). -/
def execWireWrite (a : Addr) (d : Byte) (s : State) : Host.Outcome State Fault Refusal :=
  .next (writeFrame a d s)

/-- WIRE.BURST_READ (R55): six bytes into `BUF`. -/
def execWireBurstRead (s : State) : Host.Outcome State Fault Refusal :=
  .next (burstFrame s)

/-- WIRE.SROM_LOAD (R56), of `n` image bytes. -/
def execWireSromLoad (n : Half) (s : State) : Host.Outcome State Fault Refusal :=
  .next (sromFrame n.toNat s)

end Sys2Proof.Machine
end

