-- ==== Sys2Proof/Machine/Dispatch.lean ====
section
/-! DEFINITION. Which meaning each instruction has. -/

namespace Sys2Proof.Machine

def exec (i : Instr) (s : State) : Host.Outcome State Fault Refusal :=
  match i with
  -- 41_register_access.md
  | .rdreg a => Sys2Proof.Machine.execRdreg a s
  | .wrreg a d => Sys2Proof.Machine.execWrreg a d s
  -- 42_sensor_control.md
  | .getcpi => Sys2Proof.Machine.execGetcpi s
  | .setcpi d => Sys2Proof.Machine.execSetcpi d s
  | .init => Sys2Proof.Machine.execInit s
  | .upload n => Sys2Proof.Machine.execUpload n s
  -- 43_motion_reader.md
  | .rdmot => Sys2Proof.Machine.execRdmot s
  | .rdburst => Sys2Proof.Machine.execRdburst s
  -- 44_instrumentation.md
  | .scanrate => Sys2Proof.Machine.execScanrate s
  -- 20_memory.md section 2
  | .wireRead a => Sys2Proof.Machine.execWireRead a s
  | .wireWrite a d => Sys2Proof.Machine.execWireWrite a d s
  | .wireBurstRead => Sys2Proof.Machine.execWireBurstRead s
  | .wireSromLoad n => Sys2Proof.Machine.execWireSromLoad n s

end Sys2Proof.Machine
end

