-- ==== Sys2Proof/Machine/Micro.lean ====
section
/-! DEFINITION. The sequencer one primitive at a time (10_state.md R30): each instruction's sequence of primitives as
data, and the step that runs the next one. -/

namespace Sys2Proof.Machine

/-- A primitive with no register transfer. -/
def Micro.plain (p : Prim) : Micro := { prim := p, post := [] }

/-- READ frame (20_memory.md R53). -/
def readFrameOps (c : Config) (a : Addr) : List Micro :=
  [.plain .sel, .plain (.send (readByte a)), .plain (.wait c.tRdSettle), .plain .recv, .plain (.wait c.tRdHold),
   .plain .desel]

/-- WRITE frame (20_memory.md R54). -/
def writeFrameOps (c : Config) (a : Addr) (d : Byte) : List Micro :=
  [.plain .sel, .plain (.send (writeByte a)), .plain (.send d), .plain (.wait c.tWrHold), .plain .desel]

/-- BURST-READ frame (20_memory.md R55). -/
def burstFrameOps (c : Config) : List Micro :=
  [.plain .sel, .plain (.send c.cmdBurstRead), .plain (.wait c.tBurstSettle),
   { prim := .recv, post := [.storeBuf 0] }, { prim := .recv, post := [.storeBuf 1] },
   { prim := .recv, post := [.storeBuf 2] }, { prim := .recv, post := [.storeBuf 3] },
   { prim := .recv, post := [.storeBuf 4] }, { prim := .recv, post := [.storeBuf 5] }, .plain .desel]

/-- `n` iterations of UPLOAD's loop from index `i` on (42_sensor_control.md R143). -/
def imageOps (c : Config) (n i : Nat) : List Micro :=
  match n with
  | 0 => []
  | n + 1 => .plain (.imgRead i) :: .plain .imgSend :: .plain (.wait c.tLoadByte) :: imageOps c n (i + 1)

/-- SROM-LOAD frame (20_memory.md R56). -/
def sromFrameOps (c : Config) (n : Nat) : List Micro :=
  [.plain .sel, .plain (.send c.cmdSromLoad), .plain (.wait c.tLoadCmd)] ++ imageOps c n 0 ++ [.plain .desel]

/-- `RdReg(a)` (41_register_access.md R130), with what the caller does with the byte. -/
def rdRegOps (c : Config) (a : Addr) (post : List Transfer) : List Micro :=
  readFrameOps c a ++ [{ prim := .wait c.tRdGap, post := .noteRead a :: post }]

/-- `WrReg(a, d)` (41_register_access.md R131), with what the caller does after it. -/
def wrRegOps (c : Config) (a : Addr) (d : Byte) (post : List Transfer) : List Micro :=
  writeFrameOps c a d ++ [{ prim := .wait c.tWrGap, post := post }]

/-- `Poll()` (44_instrumentation.md R170), absent without the instrumentation. -/
def pollOps (c : Config) : List Micro := if c.hasInstr then [.plain .poll] else []

/-- An instruction's sequence of primitives when it starts with `BURST = burst` (10_state.md R30, "fixed by its rule").
RDMOT's is the one for new motion; its motion test cuts it short. -/
def sequenceOf (c : Config) (burst : Bool) : Instr → List Micro
  | .rdreg a => rdRegOps c a [.resByte]
  | .wrreg a d => wrRegOps c a d []
  | .getcpi => rdRegOps c c.regCpi [.resByte]
  | .setcpi d => wrRegOps c c.regCpi (clampCpi c d) []
  | .init =>
    [.plain .sel] ++ wrRegOps c c.regPowerReset c.powerResetMagic [] ++ [.plain (.wait c.tReset)]
      ++ rdRegOps c c.regMotion [] ++ rdRegOps c c.regDeltaXL [] ++ rdRegOps c c.regDeltaXH []
      ++ rdRegOps c c.regDeltaYL [] ++ rdRegOps c c.regDeltaYH []
      ++ wrRegOps c c.regConfig c.initConfigValue []
      ++ rdRegOps c c.regProductId [] ++ rdRegOps c c.regRevisionId [] ++ [{ prim := .desel, post := [.identity] }]
  | .upload n =>
    wrRegOps c c.regConfig c.uploadConfigBaseline [] ++ wrRegOps c c.regSromEnable c.sromUnlock []
      ++ [.plain (.wait c.tSromEnGap)] ++ wrRegOps c c.regSromEnable c.sromConfirm []
      ++ sromFrameOps c n.toNat ++ [.plain (.wait c.tLoadEnd)] ++ rdRegOps c c.regSromId [.sromId]
      ++ wrRegOps c c.regConfig c.uploadConfigReset [] ++ [.plain (.wait c.tUploadEnd)]
  | .rdmot =>
    pollOps c ++ rdRegOps c c.regMotion [.motionTest] ++ rdRegOps c c.regDeltaXL [] ++ rdRegOps c c.regDeltaXH []
      ++ rdRegOps c c.regDeltaYL [] ++ rdRegOps c c.regDeltaYH [.discreteSample]
  | .rdburst =>
    pollOps c ++ (if burst then [] else wrRegOps c c.regMotionBurst c.burstEntryValue [.enterBurst])
      ++ burstFrameOps c ++ [{ prim := .wait c.tBurstGap, post := [.burstSample] }]
  | .scanrate => [{ prim := .internal, post := [.resRate] }]
  | .wireRead a => readFrameOps c a
  | .wireWrite a d => writeFrameOps c a d
  | .wireBurstRead => burstFrameOps c
  | .wireSromLoad n => sromFrameOps c n.toNat

/-- One primitive, from the state and the bytes received so far to both after it. A byte read from the image is held
only until it is sent ("referenced, never copied", 20_memory.md R62). -/
def doPrim (p : Prim) (s : State) (rx : List Byte) : State × List Byte :=
  match p with
  | .sel => (s.sel, rx)
  | .desel => (s.desel, rx)
  | .send b => (s.send b, rx)
  | .recv => (s.recv.2, s.recv.1 :: rx)
  | .wait d => (s.waitUs d, rx)
  | .imgRead i => ((s.imgRead i).2, (s.imgRead i).1 :: rx)
  | .imgSend => (s.send (rx.headD 0), rx.tail)
  | .poll => (poll s, rx)
  | .internal => (s, rx)

/-- The byte received `k` bytes before the last one. -/
def received (rx : List Byte) (k : Nat) : Byte := rx.getD k 0

/-- One register transfer, with the primitives still to come: only a failed motion test changes those. -/
def doTransfer (t : Transfer) (s : State) (rx : List Byte) (rest : List Micro) : State × List Micro :=
  match t with
  | .noteRead a => (s.noteRead a, rest)
  | .enterBurst => ({ s with burst := true }, rest)
  | .resByte => ({ s with resByte := received rx 0 }, rest)
  | .sromId => ({ s with sromId := received rx 0 }, rest)
  | .identity => ({ s with resOk := identityOk s.cfg (received rx 1) (received rx 0) }, rest)
  | .motionTest => if motionSeen s.cfg (received rx 0) then (s, rest) else ({ s with resOk := false }, [])
  | .discreteSample =>
    ({ s with sampleX := joinBytes (received rx 2) (received rx 3), sampleY := joinBytes (received rx 0) (received rx 1),
              resOk := true }, rest)
  | .storeBuf k => ({ s with buf := setBuf s.buf k (received rx 0) }, rest)
  | .burstSample =>
    ({ s with sampleX := joinBytes s.buf.b3 s.buf.b2, sampleY := joinBytes s.buf.b5 s.buf.b4, resOk := true }, rest)
  | .resRate => ({ s with resRate := s.scanSnapshot }, rest)

/-- The register transfers of one step, in order. -/
def doTransfers (ts : List Transfer) (s : State) (rx : List Byte) (rest : List Micro) : State × List Micro :=
  match ts with
  | [] => (s, rest)
  | t :: ts => doTransfers ts (doTransfer t s rx rest).1 rx (doTransfer t s rx rest).2

/-- `SEQ` after a step at position `k`: `IDLE` "in the same step" as the last primitive (10_state.md R33). -/
def seqAfter (k : Nat) (rest : List Micro) (rx : List Byte) : Seq :=
  match rest with
  | [] => .idle
  | m :: ms => .run (k + 1) (m :: ms) rx

/-- Run the next primitive of the running command. -/
def runPrimitive (k : Nat) (rest : List Micro) (rx : List Byte) (s : State) : State :=
  match rest with
  | [] => { s with seq := .idle }
  | m :: ms =>
    let p := doPrim m.prim s rx
    let q := doTransfers m.post p.1 p.2 ms
    { q.1 with seq := seqAfter k q.2 p.2 }

/-- Acceptance starts the command: `SEQ <- RUN(0)` (10_state.md R33). -/
def startCommand (i : Instr) (s : State) : State :=
  { s with seq := .run 0 (sequenceOf s.cfg s.burst i) [] }

end Sys2Proof.Machine
end

