-- ==== Sys2Proof/Machine/Sequencer.lean ====
section
/-! DEFINITION. One step of the block: reset, the command handshake, and the running command (10_state.md R30, R33,
70_reset_and_hazards.md R200, R201). -/

namespace Sys2Proof.Machine

/-- An idle block is offered a request: a defined one is accepted and runs (to completion, or from its first
primitive); a reserved one is refused (30_encoding.md R86). -/
def offer (r : Request) (s : State) : Host.Outcome State Fault Refusal :=
  match decode s.cfg r with
  | .error why => .refused (.reserved why)
  | .ok i =>
    match s.grain with
    | .command => exec i (s.latch r)
    | .primitive => .next (startCommand i (s.latch r))

/-- One step. `rst` comes before everything; while a command runs a presented request has no effect of any kind
(10_state.md R33); an idle block with nothing presented waits. -/
def cycle (s : State) : Host.Outcome State Fault Refusal :=
  if s.drive.rst then .next s.takeDrive.applyReset
  else
    match s.seq with
    | .run k rest rx => .next (runPrimitive k rest rx s.takeDrive)
    | .idle =>
      match s.drive.request with
      | none => .next s.takeDrive
      | some r => offer r s.takeDrive

/-- The host presents, in the very next step, the request of a table row's bits; the block is idle and runs it to
completion in that step. -/
def presentNext (s : State) (nbits w : Nat) : State :=
  { s with
    seq := .idle
    grain := .command
    drives := .present (tableRequest s.cfg nbits w) :: s.drives }

end Sys2Proof.Machine
end

