-- ==== Sys2Proof/Machine/Step.lean ====
section
/-! DEFINITION. The step, and where it finds its next instruction: the request the host presents. -/

namespace Sys2Proof.Machine

/-- One step of the block: `cycle`. -/
def step (s : State) : Host.Outcome State Fault Refusal := cycle s

/-- The state in which the next step runs the instruction of the table row's bits `w` (log 15). -/
def State.withFetchWord (s : State) (nbits w : Nat) : State := presentNext s nbits w

end Sys2Proof.Machine
end

