-- ==== Sys2Proof/WellFormed.lean ====
section
/-! DEFINITION. Which instructions exist in a configuration. Operand ranges hold by the operands' types. -/

namespace Sys2Proof

/-- SCANRATE exists only with the Performance Instrumentation (30_encoding.md R87); everything else always does. -/
def Instr.wf (c : Config) : Instr → Bool
  | .rdreg _ => true
  | .wrreg _ _ => true
  | .getcpi => true
  | .setcpi _ => true
  | .init => true
  | .upload _ => true
  | .rdmot => true
  | .rdburst => true
  | .scanrate => c.hasInstr
  | .wireRead _ => true
  | .wireWrite _ _ => true
  | .wireBurstRead => true
  | .wireSromLoad _ => true

/-- The nine commands the host can issue (30_encoding.md R84), as opposed to the frames, which only the
sequencer produces (R89). -/
def Instr.isCommand : Instr → Bool
  | .rdreg _ => true
  | .wrreg _ _ => true
  | .getcpi => true
  | .setcpi _ => true
  | .init => true
  | .upload _ => true
  | .rdmot => true
  | .rdburst => true
  | .scanrate => true
  | .wireRead _ => false
  | .wireWrite _ _ => false
  | .wireBurstRead => false
  | .wireSromLoad _ => false

end Sys2Proof
end

