-- ==== Sys2Proof/Safety.lean ====
section
/-! DEFINITION. What counts as a safe run (the invariant), and the terms in which claims speak of the trace: the spec's
event sequences written out once, independent of the operations of Machine/. -/

namespace Sys2Proof.Safety

open Sys2Proof.Machine

/-- The chip-select level after the events, from level `l`; none if a byte is exchanged while it is deasserted
(20_memory.md R50: the block "never exchanges a byte while `CS = DEASSERTED`"). -/
def busLevel (l : ChipSelect) : List Event → Option ChipSelect
  | [] => some l
  | .sel :: es => busLevel .asserted es
  | .desel :: es => busLevel .deasserted es
  | .xfer _ _ :: es =>
    match l with
    | .asserted => busLevel .asserted es
    | .deasserted => none
  | .wait _ :: es => busLevel l es
  | .img _ _ :: es => busLevel l es
  | .now _ :: es => busLevel l es
  | .diag _ :: es => busLevel l es

/-- The level after one primitive, from level `l`; none if it exchanges a byte while deasserted. -/
def levelAfter (l : ChipSelect) : Prim → Option ChipSelect
  | .sel => some .asserted
  | .desel => some .deasserted
  | .send _ => if l = .asserted then some l else none
  | .recv => if l = .asserted then some l else none
  | .imgSend => if l = .asserted then some l else none
  | .wait _ => some l
  | .imgRead _ => some l
  | .poll => some l
  | .internal => some l

/-- The primitives still to come exchange bytes only while the chip select is asserted, and release it at the end,
wherever a motion test may end the command. -/
def releases (l : ChipSelect) : List Micro → Bool
  | [] => l == .deasserted
  | m :: ms =>
    match levelAfter l m.prim with
    | none => false
    | some l' => (!m.post.contains .motionTest || l' == .deasserted) && releases l' ms

/-- `CS = DEASSERTED` whenever `SEQ = IDLE` (20_memory.md R52), and a running command will release it. -/
def seqOk (s : State) : Bool :=
  match s.seq with
  | .idle => s.cs == .deasserted
  | .run _ rest _ => releases s.cs rest

/-- The invariant of the block. -/
structure Inv (s : State) : Prop where
  /-- the pin level is the one the trace says, and no byte was exchanged while it was deasserted (R50, R52) -/
  framed : busLevel .deasserted s.trace = some s.cs
  /-- the chip select is deasserted whenever the block is idle (R52) -/
  released : seqOk s = true
  /-- the counters keep their widths (10_state.md R24, R28) -/
  count : s.scanCount < 2 ^ s.cfg.countW
  snapshot : s.scanSnapshot < 2 ^ s.cfg.countW
  last : s.scanLast < 2 ^ s.cfg.timerW
  rate : s.resRate < 2 ^ s.cfg.countW
  /-- the image keeps its canonical form -/
  image : s.image.wf = true

/-- What `k` exchanges with the events `es`, the chip select released at their end, leave of a state. -/
def busDone (s : State) (k : Nat) (es : List Event) : State :=
  { s with cs := .deasserted, dev := s.dev.drop k, devDrawn := s.devDrawn + k, trace := s.trace ++ es }

/-- READ frame (20_memory.md R53): `x` and `v` are the device's two answers, `v` the data. -/
def readFrameEvents (c : Config) (a : Addr) (x v : Byte) : List Event :=
  [.sel, .xfer (0#1 ++ a) x, .wait c.tRdSettle, .xfer c.fillByte v, .wait c.tRdHold, .desel]

/-- WRITE frame (20_memory.md R54): `x` and `y` are the device's two answers. -/
def writeFrameEvents (c : Config) (a : Addr) (d x y : Byte) : List Event :=
  [.sel, .xfer (1#1 ++ a) x, .xfer d y, .wait c.tWrHold, .desel]

/-- `RdReg(a)` (41_register_access.md R130): the seven events. -/
def readEvents (c : Config) (a : Addr) (x v : Byte) : List Event :=
  readFrameEvents c a x v ++ [.wait c.tRdGap]

/-- `WrReg(a, d)` (41_register_access.md R131): the six events. -/
def writeEvents (c : Config) (a : Addr) (d x y : Byte) : List Event :=
  writeFrameEvents c a d x y ++ [.wait c.tWrGap]

/-- BURST-READ frame (20_memory.md R55): `ans k` is the device's `k`-th answer from the frame's first exchange on. -/
def burstFrameEvents (c : Config) (ans : Nat → Byte) : List Event :=
  [.sel, .xfer c.cmdBurstRead (ans 0), .wait c.tBurstSettle]
    ++ (List.range 6).map (fun k => .xfer c.fillByte (ans (k + 1))) ++ [.desel]

/-- SROM-LOAD frame of `n` bytes (20_memory.md R56): `byte i` is image byte `i`, `ans k` the device's `k`-th answer. -/
def sromFrameEvents (c : Config) (n : Nat) (byte ans : Nat → Byte) : List Event :=
  [.sel, .xfer c.cmdSromLoad (ans 0), .wait c.tLoadCmd]
    ++ (List.range n).flatMap (fun i => [.img i (byte i), .xfer (byte i) (ans (i + 1)), .wait c.tLoadByte]) ++ [.desel]

/-- The six bytes of a BURST-READ frame in arrival order (10_state.md R22). -/
def bufOf (ans : Nat → Byte) : BurstBuf :=
  { b0 := ans 1, b1 := ans 2, b2 := ans 3, b3 := ans 4, b4 := ans 5, b5 := ans 6 }

/-- The match and mask columns of 30_encoding.md R84, a row for each command the configuration has (R87). -/
def commandRows (c : Config) : List (Word × Word) :=
  [(0x10000000, 0xFFFF80FF), (0x20000000, 0xFFFF8000), (0x30000000, 0xFFFFFFFF), (0x40000000, 0xFFFFFF00),
   (0x50000000, 0xFFFFFFFF), (0x60000000, 0xFFFF0000), (0x70000000, 0xFFFFFFFF), (0x80000000, 0xFFFFFFFF)]
    ++ if c.hasInstr then [(0x90000000, 0xFFFFFFFF)] else []

/-- `w` matches a row: `w & mask == match` (30_encoding.md R84). -/
def isCommandWord (c : Config) (w : Word) : Prop := ∃ row ∈ commandRows c, w &&& row.2 = row.1

/-- The sum of the waits in a trace (70_reset_and_hazards.md R220). -/
def waitSum : List Event → Nat
  | [] => 0
  | .wait d :: es => d + waitSum es
  | .sel :: es => waitSum es
  | .desel :: es => waitSum es
  | .xfer _ _ :: es => waitSum es
  | .img _ _ :: es => waitSum es
  | .now _ :: es => waitSum es
  | .diag _ :: es => waitSum es

/-- The number of byte exchanges in a trace (70_reset_and_hazards.md R220). -/
def xferCount : List Event → Nat
  | [] => 0
  | .xfer _ _ :: es => xferCount es + 1
  | .sel :: es => xferCount es
  | .desel :: es => xferCount es
  | .wait _ :: es => xferCount es
  | .img _ _ :: es => xferCount es
  | .now _ :: es => xferCount es
  | .diag _ :: es => xferCount es

/-- The event without what the environment answered: its kind, the byte sent, the wait (45_cross_family_laws.md R179). -/
def shapeOf : Event → Event
  | .sel => .sel
  | .desel => .desel
  | .xfer out _ => .xfer out 0
  | .wait d => .wait d
  | .img i b => .img i b
  | .now _ => .now 0
  | .diag _ => .diag 0

/-- The event is one of the bus, the waits or the image port, not of the instrumentation (44_instrumentation.md R174). -/
def isBusEvent : Event → Bool
  | .sel => true
  | .desel => true
  | .xfer _ _ => true
  | .wait _ => true
  | .img _ _ => true
  | .now _ => false
  | .diag _ => false

/-- The state with everything of the instrumentation taken out (44_instrumentation.md R174). -/
def withoutInstr (s : State) : State :=
  { s with
    scanCount := 0
    scanSnapshot := 0
    scanLast := 0
    resRate := 0
    clk := []
    clkDrawn := 0
    trace := s.trace.filter isBusEvent
    cfg := { s.cfg with hasInstr := false } }

/-- What no instruction changes: the configuration, `CMDREG` (latched at acceptance, not by the command), `SEQ`, the
host's drives, every byte on the image port, and the number of resets. -/
def keepsRest (s t : State) : Prop :=
  t.cfg = s.cfg ∧ t.cmdreg = s.cmdreg ∧ t.seq = s.seq ∧ t.grain = s.grain ∧ t.drives = s.drives ∧ t.resets = s.resets
    ∧ ∀ i, t.image.lookup i = s.image.lookup i

/-- The scan-rate counters and the readings of the clock are unchanged. -/
def keepsScan (s t : State) : Prop :=
  t.scanCount = s.scanCount ∧ t.scanSnapshot = s.scanSnapshot ∧ t.scanLast = s.scanLast ∧ t.clk = s.clk
    ∧ t.clkDrawn = s.clkDrawn

/-- `Poll()` run `k` times (44_instrumentation.md R170). -/
def polls : Nat → State → State
  | 0, s => s
  | k + 1, s => polls k (poll s)

end Sys2Proof.Safety
end

