-- ==== Sys2Proof/Certificates/Slice0/Obligations.lean ====
section
/-! DEFINITION. The statements for the provers. Each formalises the rules of spec/ its docstring names. -/

open Sys2Proof Sys2Proof.Machine Sys2Proof.Safety

/-! ### Encoding (30_encoding.md) -/

/-- R84, R85, R90, R80 to R82: in every configuration that has the instruction, decoding its encoding gives it back, with
every operand at every value. -/
def Obligations.EncodingDecodesToItself : Prop :=
  ∀ (c : Config) (i : Instr), i.wf c = true → decode c (encode c i) = .ok i

/-- R84: the rows are disjoint and complete in their operands, so a request that decodes is the encoding of what it decodes
to, and what it decodes to exists in the configuration. -/
def Obligations.DecodedRequestIsItsEncoding : Prop :=
  ∀ (c : Config) (r : Request) (i : Instr), decode c r = .ok i → encode c i = r ∧ i.wf c = true

/-- R84: a word is a command exactly when `w & mask == match` for a row of the table; what it decodes to is a host command,
never a frame (R89). -/
def Obligations.CommandWordsAreTheTableRows : Prop :=
  ∀ (c : Config) (w : Word),
    ((∃ i, decode c (.command w) = .ok i) ↔ isCommandWord c w) ∧
    (∀ i, decode c (.command w) = .ok i → i.isCommand = true)

/-- R84: "the rows are disjoint": of two rows, a bit covered by both masks differs. -/
def Obligations.CommandRowsAreDisjoint : Prop :=
  ∀ c : Config, (commandRows c).Pairwise (fun x y => (x.2 &&& y.2) &&& (x.1 ^^^ y.1) ≠ 0)

/-- R86: a reserved word, one that matches no row, is never accepted: an idle block gives it no transition at all. -/
def Obligations.ReservedWordIsRefused : Prop :=
  ∀ (s : State) (w : Word), s.seq = .idle → s.drive.rst = false → s.drive.request = some (.command w) →
    ¬ isCommandWord s.cfg w → ∃ why, step s = .refused (.reserved why)

/-- R87: without the instrumentation every word with `OP = 0x9` is reserved, and SCANRATE has no effect to run. -/
def Obligations.ScanrateIsReservedWithoutInstrumentation : Prop :=
  ∀ (c : Config) (s : State) (w : Word), c.hasInstr = false → s.cfg = c → w.extractLsb' 28 4 = 0x9 →
    (∃ why, decode c (.command w) = .error why) ∧
    (s.seq = .idle → s.drive = .present (.command w) → ∃ why, step s = .refused (.reserved why)) ∧
    exec .scanrate s = .refused (.reserved .noInstrumentation)

/-- R80, R81: bit 7 of a frame's first byte is the direction, bits 6:0 are the address, and the data byte of a WRITE frame
follows the address byte. -/
def Obligations.DirectionBitSeparatesReadFromWrite : Prop :=
  ∀ (c : Config) (b d : Byte),
    decode c (.frame8 b .oneReceive)
      = (if b.toNat < 128 then .ok (.wireRead (BitVec.ofNat 7 b.toNat)) else .error .readNeedsBit7Clear) ∧
    decode c (.frame16 (b ++ d))
      = (if b.toNat < 128 then .error .writeNeedsBit7Set else .ok (.wireWrite (BitVec.ofNat 7 (b.toNat - 128)) d))

/-- 95_test_vectors.md V7 and the wire-byte table: words written out from the encoding decode to their instructions. -/
def Obligations.WrittenOutWordsDecode : Prop :=
  decode .tc0 (.command 0b00010000000000000000001000000000) = .ok (.rdreg 0b0000010) ∧
  decode .tc0 (.command 0b00100000000000000000111101110111) = .ok (.wrreg 0b0001111 0b01110111) ∧
  decode .tc0 (.command 0b01000000000000000000000001111000) = .ok (.setcpi 0b01111000) ∧
  decode .tc0 (.command 0b01100000000000001111111111111111) = .ok (.upload 0xFFFF) ∧
  decode .tc0 (.command 0b01110000000000000000000000000000) = .ok .rdmot ∧
  decode .tc0 (.command 0b10010000000000000000000000000000) = .ok .scanrate ∧
  decode .tc0 (.frame8 0b00101010 .oneReceive) = .ok (.wireRead 0b0101010) ∧
  decode .tc0 (.frame16 0b1011101001011010) = .ok (.wireWrite 0b0111010 0b01011010)

/-! ### Bus Transport (40_bus_transport.md) -/

/-- R110, R111: `Sel` and `Desel` write the level and record their event, also when the level was already there; nothing
else changes. -/
def Obligations.ChipSelectWritesAreRecorded : Prop :=
  ∀ s : State,
    s.sel = { s with cs := .asserted, trace := s.trace ++ [.sel] } ∧
    s.desel = { s with cs := .deasserted, trace := s.trace ++ [.desel] }

/-- R112, R113: `Send` records the byte sent and the device's answer and keeps nothing of it; `Recv` drives `FILL_BYTE` and
returns the answer. Both use up one answer and change nothing else. -/
def Obligations.ExchangesUseOneAnswerEach : Prop :=
  ∀ (s : State) (b : Byte),
    s.send b = { s with dev := s.dev.drop 1, devDrawn := s.devDrawn + 1, trace := s.trace ++ [.xfer b (s.answer 0)] } ∧
    s.recv = (s.answer 0, { s with dev := s.dev.drop 1, devDrawn := s.devDrawn + 1,
                                   trace := s.trace ++ [.xfer s.cfg.fillByte (s.answer 0)] })

/-! ### The four frames (20_memory.md section 2) -/

/-- R53 gives the READ frame's events. That the frame is an instruction of its own, which keeps `RES_BYTE` and `BURST` and
leaves its byte in the trace only, is the model's choice (log 8). -/
def Obligations.ReadFrameEvents : Prop :=
  ∀ (a : Addr) (s : State),
    exec (.wireRead a) s = .next (busDone s 2 (readFrameEvents s.cfg a (s.answer 0) (s.answer 1)))

/-- R54 gives the WRITE frame's events, R177 says that it has no side effect. That the frame is an instruction of its own is
the model's choice (log 8). -/
def Obligations.WriteFrameEvents : Prop :=
  ∀ (a : Addr) (d : Byte) (s : State),
    exec (.wireWrite a d) s = .next (busDone s 2 (writeFrameEvents s.cfg a d (s.answer 0) (s.answer 1)))

/-- R55 gives the BURST-READ frame's events, R22 and R177 the order of its six bytes in `BUF` inside RDBURST. That the frame
run alone writes `BUF`, and nothing else, is the model's choice (log 8). -/
def Obligations.BurstReadFrameEvents : Prop :=
  ∀ s : State,
    exec .wireBurstRead s = .next { busDone s 7 (burstFrameEvents s.cfg s.answer) with buf := bufOf s.answer }

/-- R56 gives the SROM-LOAD frame's events: exactly `N` image bytes in ascending order, one exchange and one gap each; R177 says
that it has no side effect. That the frame is an instruction of its own is the model's choice (log 8). -/
def Obligations.SromLoadFrameEvents : Prop :=
  ∀ (n : Half) (s : State),
    exec (.wireSromLoad n) s
      = .next { busDone s (n.toNat + 1) (sromFrameEvents s.cfg n.toNat (fun i => s.imageByte i i) s.answer) with
                imgDrawn := s.imgDrawn + n.toNat }

/-! ### Register Access (41_register_access.md) -/

/-- R130: RDREG's trace, `RES_BYTE` and `BURST`, and nothing else. -/
def Obligations.RdregReadsOneRegister : Prop :=
  ∀ (a : Addr) (s : State),
    exec (.rdreg a) s
      = .next { busDone s 2 (readEvents s.cfg a (s.answer 0) (s.answer 1)) with
                resByte := s.answer 1
                burst := if a = s.cfg.regMotionBurst then s.burst else false }

/-- R131: WRREG's trace, and nothing else: `BURST` is unchanged whatever the address. -/
def Obligations.WrregWritesOneRegister : Prop :=
  ∀ (a : Addr) (d : Byte) (s : State),
    exec (.wrreg a d) s = .next (busDone s 2 (writeEvents s.cfg a d (s.answer 0) (s.answer 1)))

/-! ### Sensor Control (42_sensor_control.md) -/

/-- R140: GETCPI is RDREG of `REG_CPI`; in a configuration of R11 it leaves `BURST` false. -/
def Obligations.GetcpiReadsTheCpiRegister : Prop :=
  ∀ s : State, s.cfg.ok = true →
    exec .getcpi s
      = .next { busDone s 2 (readEvents s.cfg s.cfg.regCpi (s.answer 0) (s.answer 1)) with
                resByte := s.answer 1
                burst := false }

/-- R141: SETCPI writes the smaller of `D` and `CPI_MAX`, as unsigned numbers. -/
def Obligations.SetcpiWritesTheClampedValue : Prop :=
  ∀ (d : Byte) (s : State),
    exec (.setcpi d) s
      = .next (busDone s 2 (writeEvents s.cfg s.cfg.regCpi (BitVec.ofNat 8 (min d.toNat s.cfg.cpiMax.toNat))
                (s.answer 0) (s.answer 1)))

/-- R142: INIT's 18 exchanges in order, `RES_OK` from the two identity bytes, `BURST` false. -/
def Obligations.InitResetsAndIdentifies : Prop :=
  ∀ s : State, s.cfg.ok = true →
    exec .init s
      = .next { busDone s 18
                  ([.sel]
                    ++ writeEvents s.cfg s.cfg.regPowerReset s.cfg.powerResetMagic (s.answer 0) (s.answer 1)
                    ++ [.wait s.cfg.tReset]
                    ++ readEvents s.cfg s.cfg.regMotion (s.answer 2) (s.answer 3)
                    ++ readEvents s.cfg s.cfg.regDeltaXL (s.answer 4) (s.answer 5)
                    ++ readEvents s.cfg s.cfg.regDeltaXH (s.answer 6) (s.answer 7)
                    ++ readEvents s.cfg s.cfg.regDeltaYL (s.answer 8) (s.answer 9)
                    ++ readEvents s.cfg s.cfg.regDeltaYH (s.answer 10) (s.answer 11)
                    ++ writeEvents s.cfg s.cfg.regConfig s.cfg.initConfigValue (s.answer 12) (s.answer 13)
                    ++ readEvents s.cfg s.cfg.regProductId (s.answer 14) (s.answer 15)
                    ++ readEvents s.cfg s.cfg.regRevisionId (s.answer 16) (s.answer 17)
                    ++ [.desel]) with
                burst := false
                resOk := decide (s.answer 15 = s.cfg.productIdExpect ∧ s.answer 17 = s.cfg.revisionIdExpect) }

/-- R143: UPLOAD's exchanges in order, exactly `N` image bytes among them, `SROM_ID` from the read at the end, `BURST`
false. -/
def Obligations.UploadStreamsTheImage : Prop :=
  ∀ (n : Half) (s : State), s.cfg.ok = true →
    exec (.upload n) s
      = .next { busDone s (n.toNat + 11)
                  (writeEvents s.cfg s.cfg.regConfig s.cfg.uploadConfigBaseline (s.answer 0) (s.answer 1)
                    ++ writeEvents s.cfg s.cfg.regSromEnable s.cfg.sromUnlock (s.answer 2) (s.answer 3)
                    ++ [.wait s.cfg.tSromEnGap]
                    ++ writeEvents s.cfg s.cfg.regSromEnable s.cfg.sromConfirm (s.answer 4) (s.answer 5)
                    ++ sromFrameEvents s.cfg n.toNat (fun i => s.imageByte i i) (fun k => s.answer (6 + k))
                    ++ [.wait s.cfg.tLoadEnd]
                    ++ readEvents s.cfg s.cfg.regSromId (s.answer (n.toNat + 7)) (s.answer (n.toNat + 8))
                    ++ writeEvents s.cfg s.cfg.regConfig s.cfg.uploadConfigReset (s.answer (n.toNat + 9))
                        (s.answer (n.toNat + 10))
                    ++ [.wait s.cfg.tUploadEnd]) with
                imgDrawn := s.imgDrawn + n.toNat
                burst := false
                sromId := s.answer (n.toNat + 8) }

/-! ### Performance Instrumentation (44_instrumentation.md) -/

/-- R170: `Poll` does nothing without the instrumentation; with it, it counts modulo `2^COUNT_W`, reads the clock, and
closes the window exactly when the modular difference has reached `SCAN_WINDOW_MS`. -/
def Obligations.PollCountsAndClosesTheWindow : Prop :=
  ∀ s : State,
    (s.cfg.hasInstr = false → poll s = s) ∧
    (s.cfg.hasInstr = true → s.scanLast < 2 ^ s.cfg.timerW →
      poll s =
        if s.cfg.scanWindowMs
            ≤ (if s.scanLast ≤ s.clockAt 0 then s.clockAt 0 - s.scanLast
               else s.clockAt 0 + 2 ^ s.cfg.timerW - s.scanLast) then
          { s with
            clk := s.clk.drop 1
            clkDrawn := s.clkDrawn + 1
            scanCount := 0
            scanSnapshot := (s.scanCount + 1) % 2 ^ s.cfg.countW
            scanLast := s.clockAt 0
            trace := s.trace ++ [.now (s.clockAt 0), .diag ((s.scanCount + 1) % 2 ^ s.cfg.countW)] }
        else
          { s with
            clk := s.clk.drop 1
            clkDrawn := s.clkDrawn + 1
            scanCount := (s.scanCount + 1) % 2 ^ s.cfg.countW
            trace := s.trace ++ [.now (s.clockAt 0)] })

/-- R173: SCANRATE copies `SCAN_SNAPSHOT` to `RES_RATE` and does nothing else: no event, no poll. -/
def Obligations.ScanrateCopiesTheSnapshot : Prop :=
  ∀ s : State, s.cfg.hasInstr = true → exec .scanrate s = .next { s with resRate := s.scanSnapshot }

/-- Section 8 of the source (95_test_vectors.md S7): `k + 1` polls of which only the last one is due report
`SCAN_COUNT + k + 1` and start the next count at 0. -/
def Obligations.WindowReportsThePollsItCounted : Prop :=
  ∀ (k : Nat) (s : State), s.cfg.hasInstr = true →
    (∀ j < k, windowCloses s.cfg (s.clockAt j) s.scanLast = false) →
    windowCloses s.cfg (s.clockAt k) s.scanLast = true →
    (polls (k + 1) s).scanSnapshot = (s.scanCount + k + 1) % 2 ^ s.cfg.countW ∧
    (polls (k + 1) s).scanCount = 0 ∧ (polls (k + 1) s).scanLast = s.clockAt k

/-! ### Motion Reader (43_motion_reader.md) -/

/-- R160: RDMOT after its poll, on both paths: without new motion one register is read and the sample is kept; with new
motion the four delta registers are read in the fixed order. -/
def Obligations.RdmotReadsMotion : Prop :=
  ∀ s p : State, s.cfg.ok = true → p = poll s →
    (s.answer 1 &&& s.cfg.motionMask ≠ s.cfg.motionExpect →
      exec .rdmot s
        = .next { busDone p 2 (readEvents s.cfg s.cfg.regMotion (s.answer 0) (s.answer 1)) with
                  burst := false
                  resOk := false }) ∧
    (s.answer 1 &&& s.cfg.motionMask = s.cfg.motionExpect →
      exec .rdmot s
        = .next { busDone p 10
                    (readEvents s.cfg s.cfg.regMotion (s.answer 0) (s.answer 1)
                      ++ readEvents s.cfg s.cfg.regDeltaXL (s.answer 2) (s.answer 3)
                      ++ readEvents s.cfg s.cfg.regDeltaXH (s.answer 4) (s.answer 5)
                      ++ readEvents s.cfg s.cfg.regDeltaYL (s.answer 6) (s.answer 7)
                      ++ readEvents s.cfg s.cfg.regDeltaYH (s.answer 8) (s.answer 9)) with
                  burst := false
                  sampleX := s.answer 5 ++ s.answer 3
                  sampleY := s.answer 9 ++ s.answer 7
                  resOk := true })

/-- R161: RDBURST after its poll: the entry write is sent exactly when `BURST` is false; then the burst frame, and always
success. -/
def Obligations.RdburstStreamsMotion : Prop :=
  ∀ s p : State, p = poll s →
    (s.burst = true →
      exec .rdburst s
        = .next { busDone p 7 (burstFrameEvents s.cfg s.answer ++ [.wait s.cfg.tBurstGap]) with
                  buf := bufOf s.answer
                  sampleX := s.answer 4 ++ s.answer 3
                  sampleY := s.answer 6 ++ s.answer 5
                  resOk := true }) ∧
    (s.burst = false →
      exec .rdburst s
        = .next { busDone p 9
                    (writeEvents s.cfg s.cfg.regMotionBurst s.cfg.burstEntryValue (s.answer 0) (s.answer 1)
                      ++ burstFrameEvents s.cfg (fun k => s.answer (2 + k)) ++ [.wait s.cfg.tBurstGap]) with
                  burst := true
                  buf := bufOf (fun k => s.answer (2 + k))
                  sampleX := s.answer 6 ++ s.answer 5
                  sampleY := s.answer 8 ++ s.answer 7
                  resOk := true })

/-- R163: the burst state machine: `BURST` after every command, as the table has it. The table has no frames; that none of the
four wire frames run alone touches `BURST` is the model's choice (log 8). -/
def Obligations.BurstFlagStateMachine : Prop :=
  ∀ (i : Instr) (s t : State), s.cfg.ok = true → exec i s = .next t →
    t.burst = (match i with
      | .rdburst => true
      | .rdmot => false
      | .getcpi => false
      | .init => false
      | .upload _ => false
      | .rdreg a => if a = s.cfg.regMotionBurst then s.burst else false
      | .wrreg _ _ => s.burst
      | .setcpi _ => s.burst
      | .scanrate => s.burst
      | .wireRead _ => s.burst
      | .wireWrite _ _ => s.burst
      | .wireBurstRead => s.burst
      | .wireSromLoad _ => s.burst)

/-- R162: after any command that reads a register other than the motion-burst register, the next RDBURST performs exactly
one entry write before its burst frame. -/
def Obligations.DiscreteReadForcesOneReentry : Prop :=
  ∀ (i : Instr) (s t : State), s.cfg.ok = true →
    (i = .getcpi ∨ i = .init ∨ (∃ n, i = .upload n) ∨ i = .rdmot ∨ ∃ a, i = .rdreg a ∧ a ≠ s.cfg.regMotionBurst) →
    exec i s = .next t →
    ∃ u, exec .rdburst t = .next u ∧ u.burst = true ∧
      u.trace = (poll t).trace
        ++ writeEvents s.cfg s.cfg.regMotionBurst s.cfg.burstEntryValue (t.answer 0) (t.answer 1)
        ++ burstFrameEvents s.cfg (fun k => t.answer (2 + k)) ++ [.wait s.cfg.tBurstGap]

/-- R175 row 6, R23: a sample is the high byte joined to the low byte, read as a two's-complement number; the low byte is
never sign-extended. -/
def Obligations.SampleIsTwosComplementOfJoinedBytes : Prop :=
  ∀ hi lo : Byte, (joinBytes hi lo).toNat = 256 * hi.toNat + lo.toNat ∧
    sint16 (joinBytes hi lo)
      = (if hi.toNat < 128 then (256 * hi.toNat + lo.toNat : Int) else 256 * hi.toNat + lo.toNat - 65536) ∧
    sint16 (joinBytes hi lo) = (joinBytes hi lo).toInt

/-! ### Frames: what an instruction leaves unchanged (10_state.md section 4, 45_cross_family_laws.md R179) -/

/-- RDREG and GETCPI change, of the registers, only `RES_BYTE` and `BURST`. That the READ frame alone changes none is the
model's choice (log 8). -/
def Obligations.RegisterReadsKeepTheRest : Prop :=
  ∀ (i : Instr) (s t : State), ((∃ a, i = .rdreg a) ∨ i = .getcpi ∨ ∃ a, i = .wireRead a) → exec i s = .next t →
    t.sromId = s.sromId ∧ t.buf = s.buf ∧ t.sampleX = s.sampleX ∧ t.sampleY = s.sampleY ∧ t.resOk = s.resOk ∧
    t.resRate = s.resRate ∧ keepsScan s t ∧ keepsRest s t ∧ t.imgDrawn = s.imgDrawn ∧ t.cs = .deasserted ∧
    ((∃ a, i = .wireRead a) → t.resByte = s.resByte ∧ t.burst = s.burst)

/-- WRREG and SETCPI change no register but `CS`, and leave that deasserted; so do the WRITE frame and the SROM-LOAD frame, run
alone by the model's choice (log 8). -/
def Obligations.RegisterWritesKeepEveryRegister : Prop :=
  ∀ (i : Instr) (s t : State),
    ((∃ a d, i = .wrreg a d) ∨ (∃ d, i = .setcpi d) ∨ (∃ a d, i = .wireWrite a d) ∨ ∃ n, i = .wireSromLoad n) →
    exec i s = .next t →
    t.burst = s.burst ∧ t.sromId = s.sromId ∧ t.buf = s.buf ∧ t.sampleX = s.sampleX ∧ t.sampleY = s.sampleY ∧
    t.resOk = s.resOk ∧ t.resByte = s.resByte ∧ t.resRate = s.resRate ∧ keepsScan s t ∧ keepsRest s t ∧
    t.cs = .deasserted

/-- INIT changes, of the registers, only `RES_OK` and `BURST`; UPLOAD only `SROM_ID` and `BURST`. -/
def Obligations.InitAndUploadKeepTheRest : Prop :=
  ∀ (i : Instr) (s t : State), (i = .init ∨ ∃ n, i = .upload n) → exec i s = .next t →
    t.buf = s.buf ∧ t.sampleX = s.sampleX ∧ t.sampleY = s.sampleY ∧ t.resByte = s.resByte ∧ t.resRate = s.resRate ∧
    keepsScan s t ∧ keepsRest s t ∧ t.cs = .deasserted ∧
    (i = .init → t.sromId = s.sromId) ∧ ((∃ n, i = .upload n) → t.resOk = s.resOk)

/-- RDMOT and RDBURST change, of the registers, only `RES_OK`, `BURST`, `SAMPLE_X/Y`, the scan-rate counters and, RDBURST
alone, `BUF`. That the BURST-READ frame run alone changes `BUF`, and only `BUF`, is the model's choice (log 8). -/
def Obligations.MotionReadsKeepTheRest : Prop :=
  ∀ (i : Instr) (s t : State), (i = .rdmot ∨ i = .rdburst ∨ i = .wireBurstRead) → exec i s = .next t →
    t.sromId = s.sromId ∧ t.resByte = s.resByte ∧ t.resRate = s.resRate ∧ keepsRest s t ∧ t.imgDrawn = s.imgDrawn ∧
    t.cs = .deasserted ∧
    (i = .rdmot → t.buf = s.buf) ∧
    (i = .wireBurstRead → t.burst = s.burst ∧ t.sampleX = s.sampleX ∧ t.sampleY = s.sampleY ∧ t.resOk = s.resOk ∧
      keepsScan s t)

/-- SCANRATE changes `RES_RATE` only: no bus activity, no change to `CS`. -/
def Obligations.ScanrateKeepsTheRest : Prop :=
  ∀ s t : State, exec .scanrate s = .next t →
    t.burst = s.burst ∧ t.sromId = s.sromId ∧ t.buf = s.buf ∧ t.sampleX = s.sampleX ∧ t.sampleY = s.sampleY ∧
    t.resOk = s.resOk ∧ t.resByte = s.resByte ∧ keepsScan s t ∧ keepsRest s t ∧ t.imgDrawn = s.imgDrawn ∧
    t.cs = s.cs ∧ t.trace = s.trace ∧ t.dev = s.dev ∧ t.devDrawn = s.devDrawn

/-! ### Completion, timing and independence of the device -/

/-- R180, R115: every instruction the configuration has runs to its end from every state, whatever the device answers; no
step ever faults; and a step is refused only when an idle block is offered a request that decodes to nothing. -/
def Obligations.EveryInstructionRunsToItsEnd : Prop :=
  (∀ (i : Instr) (s : State), i.wf s.cfg = true → ∃ t, exec i s = .next t) ∧
  (∀ s : State, (∃ t, step s = .next t) ∨
    (s.seq = .idle ∧ ∃ r why, s.drive.request = some r ∧ decode s.cfg r = .error why ∧
      step s = .refused (.reserved why)))

/-- R220, R179: the sum of the waits and the number of exchanges a command adds to the trace, as formulas in the delay
table. Those two rules list the commands; the four rows of the frames come from R53 to R56 and R83, each frame run alone by the
model's choice (log 8). -/
def Obligations.WaitAndExchangeTotals : Prop :=
  ∀ (i : Instr) (s t : State), exec i s = .next t →
    let c := s.cfg
    let rd := c.tRdSettle + c.tRdHold + c.tRdGap
    let wr := c.tWrHold + c.tWrGap
    let bf := c.tBurstSettle + c.tBurstGap
    let total : Nat × Nat := (match i with
      | .rdreg _ => (rd, 2)
      | .wrreg _ _ => (wr, 2)
      | .getcpi => (rd, 2)
      | .setcpi _ => (wr, 2)
      | .init => (2 * wr + c.tReset + 7 * rd, 18)
      | .upload n => (4 * wr + c.tSromEnGap + c.tLoadCmd + n.toNat * c.tLoadByte + c.tLoadEnd + rd + c.tUploadEnd,
          11 + n.toNat)
      | .rdmot => if s.answer 1 &&& c.motionMask = c.motionExpect then (5 * rd, 10) else (rd, 2)
      | .rdburst => if s.burst then (bf, 7) else (wr + bf, 9)
      | .scanrate => (0, 0)
      | .wireRead _ => (c.tRdSettle + c.tRdHold, 2)
      | .wireWrite _ _ => (c.tWrHold, 2)
      | .wireBurstRead => (c.tBurstSettle, 7)
      | .wireSromLoad n => (c.tLoadCmd + n.toNat * c.tLoadByte, 1 + n.toNat))
    waitSum t.trace = waitSum s.trace + total.1 ∧ xferCount t.trace = xferCount s.trace + total.2 ∧
    t.devDrawn = s.devDrawn + total.2

/-- R179: what a command sends and how long it waits do not depend on what the device answers, but for RDMOT's motion test:
two runs from states that differ in the device's coming answers only have traces of one shape.
The frames, which R179 does not list, run alone by the model's choice (log 8). -/
def Obligations.TraceShapeIgnoresTheDevice : Prop :=
  ∀ (i : Instr) (s t u : State) (dev : List Byte) (drawn : Nat),
    exec i s = .next t → exec i { s with dev := dev, devDrawn := drawn } = .next u →
    (i = .rdmot → (motionSeen s.cfg (s.answer 1) = motionSeen s.cfg (answerOf dev drawn 1))) →
    t.trace.map shapeOf = u.trace.map shapeOf

/-- R174: with the instrumentation or without it, a command other than SCANRATE does the same to everything but the
instrumentation's own registers, readings and events.
The frames, which R174 does not name, run alone by the model's choice (log 8). -/
def Obligations.InstrumentationDoesNotInterfere : Prop :=
  ∀ (i : Instr) (s s' t t' : State), i ≠ .scanrate → withoutInstr s = withoutInstr s' →
    exec i s = .next t → exec i s' = .next t' → withoutInstr t = withoutInstr t'

/-! ### The step: handshake, reset, granularity (10_state.md R30, R33, 70_reset_and_hazards.md) -/

/-- R33: when an idle block is offered a request that decodes to `i`, a step at whole-command grain is `exec i` at the state
with the drive used up and the command word latched; at primitive grain it starts the command at `RUN(0)`. -/
def Obligations.StepRunsTheDecodedInstruction : Prop :=
  ∀ (s : State) (r : Request) (i : Instr), s.seq = .idle → s.drive.rst = false → s.drive.request = some r →
    decode s.cfg r = .ok i →
    (s.grain = .command → step s = exec i (s.takeDrive.latch r)) ∧
    (s.grain = .primitive →
      step s = .next { s.takeDrive.latch r with seq := .run 0 (sequenceOf s.cfg s.burst i) [] }) ∧
    (∀ w, r = .command w → (s.takeDrive.latch r).cmdreg = w)

/-- R33: while a command runs, `cmd_ready` is 0 and a presented request has no effect of any kind; an idle block with nothing
presented only waits. -/
def Obligations.PresentedRequestHasNoEffectWhileBusy : Prop :=
  ∀ (s : State) (d : Drive) (ds : List Drive), s.drives = d :: ds → d.rst = false →
    (s.busy = true → s.cmdReady = false ∧
      ∀ r, step { s with drives := { d with request := r } :: ds } = step s) ∧
    (s.busy = false → s.cmdReady = true ∧
      (d.request = none → d.image = none → step s = .next { s with drives := ds }))

/-- R200, R201: `rst` brings every element of the state with a reset value to it from any state, also in mid-command, with no
event, and leaves the block idle; the configuration stays (R7). The registers without a reset value hold free values of
the model's own (log 2). -/
def Obligations.ResetAbandonsWhateverRuns : Prop :=
  ∀ s : State, s.drive.rst = true → ∃ t, step s = .next t ∧
    t.burst = false ∧ t.cs = .deasserted ∧ t.seq = .idle ∧ t.busy = false ∧ t.cmdReady = true ∧
    t.scanCount = 0 ∧ t.scanSnapshot = 0 ∧ t.scanLast = 0 ∧ t.trace = [] ∧ t.cfg = s.cfg

/-- 10_state.md section 5: the state after reset, in the values the spec gives. -/
def Obligations.ResetStateHasTheSpecsValues : Prop :=
  State.reset.burst = false ∧ State.reset.cs = .deasserted ∧ State.reset.seq = .idle ∧
  State.reset.scanCount = 0 ∧ State.reset.scanSnapshot = 0 ∧ State.reset.scanLast = 0 ∧ State.reset.trace = [] ∧
  State.reset.cmdReady = true ∧ State.reset.busy = false

/-- R30: a command run primitive by primitive and the same command run in one step end in the same state, and the block is
busy at every step in between. The host presents the command in the first step and nothing after it. -/
def Obligations.PrimitiveStepsAgreeWithTheWholeCommand : Prop :=
  ∀ (s t : State) (r : Request) (i : Instr), s.seq = .idle → s.drives = [.present r] → decode s.cfg r = .ok i →
    step { s with grain := .command } = .next t →
    ∃ n, core.run n { s with grain := .primitive } = .next { t with grain := .primitive } ∧
      ∀ j, 0 < j → j < n → ∃ u : State, core.run j { s with grain := .primitive } = .next u ∧ u.busy = true

/-- R115: from any point of a running command, with no reset, the block is idle again after at most as many steps as there
are primitives still to come (one, if there is none). -/
def Obligations.RunningCommandEndsInBoundedSteps : Prop :=
  ∀ (s : State) (k : Nat) (rest : List Micro) (rx : List Byte), s.seq = .run k rest rx →
    (∀ d ∈ s.drives, d.rst = false) →
    ∃ (n : Nat) (t : State), n ≤ max 1 rest.length ∧ core.run n s = .next t ∧ t.seq = .idle

/-- R64, R14: without a reset a step only appends to the trace. -/
def Obligations.TraceOnlyGrows : Prop :=
  ∀ s t : State, s.drive.rst = false → step s = .next t → ∃ es, t.trace = s.trace ++ es

/-- R7, R35: no command, no reset and no bus event changes a parameter. -/
def Obligations.ConfigurationNeverChanges : Prop :=
  ∀ s t : State, step s = .next t → t.cfg = s.cfg

/-- R62, R71: no instruction changes what the image port holds; the bytes the host presents read back at their indices, and
each read sees them as they are then. The model's choices: the port is a list of the host's bytes (log 5), the bytes presented
in a step are those the same step reads (log 7), and a reset leaves the port alone (log 12). -/
def Obligations.OnlyTheHostChangesTheImage : Prop :=
  (∀ s t : State, step s = .next t →
    t.image = (match s.drive.image with
      | some bs => Memory.ofBytes bs
      | none => s.image)) ∧
  (∀ (bs : List Byte) (i : Nat), i < 65536 → (Memory.ofBytes bs).lookup i = bs[i]?) ∧
  (∀ (s t : State) (k i : Nat) (ms : List Micro) (rx bs : List Byte) (b : Byte),
    s.seq = .run k (Micro.plain (.imgRead i) :: ms) rx → s.drive.rst = false → s.drive.image = some bs → i < 65536 →
    bs[i]? = some b → step s = .next t → t.trace = s.trace ++ [.img i b])

/-- R20: `BURST` is written true only by RDBURST: a step at whole-command grain that raises it ran RDBURST. -/
def Obligations.OnlyRdburstRaisesTheFlag : Prop :=
  ∀ s t : State, s.seq = .idle → s.grain = .command → step s = .next t → s.burst = false → t.burst = true →
    ∃ r, s.drive.request = some r ∧ decode s.cfg r = .ok .rdburst

/-! ### The invariant -/

/-- R50, R52, R24: every step keeps the invariant: bytes are exchanged only while the chip select is asserted, it is
deasserted whenever the block is idle, the counters keep their widths and the image its canonical form. -/
def Obligations.StepKeepsTheInvariant : Prop :=
  ∀ s t : State, Inv s → step s = .next t → Inv t

/-- The invariant holds at reset. -/
def Obligations.ResetMeetsTheInvariant : Prop := Inv State.reset

/-! ### The outputs -/

/-- R28, R173, R22, R35: with the instrumentation the host reads `RES_RATE`, after SCANRATE the last window's count; `BURST` and
`BUF` are never among what it sees. The model's choice (log 11): without the instrumentation, where `RES_RATE` does not exist,
the rate output shows nothing, whatever the fields of the instrumentation hold. -/
def Obligations.HostSeesTheRateOnlyWithInstrumentation : Prop :=
  (∀ s : State, s.cfg.hasInstr = true → s.hostView.resRate = some s.resRate ∧
    ∃ t, exec .scanrate s = .next t ∧ t.hostView = { s.hostView with resRate := some s.scanSnapshot }) ∧
  (∀ (s : State) (rate count snapshot last : Nat), s.cfg.hasInstr = false → s.hostView.resRate = none ∧
    { s with resRate := rate, scanCount := count, scanSnapshot := snapshot, scanLast := last }.hostView = s.hostView) ∧
  (∀ (s : State) (b : Bool) (f : BurstBuf), { s with burst := b, buf := f }.hostView = s.hostView)
end

