-- ==== Sys2Proof/Laws/Encoding.lean ====
section
/-! SUPPORT. Bit fields as arithmetic: what the decoder reads from a word put together by the encoder. -/

namespace Sys2Proof

theorem toNat_append_eq {m n : Nat} (x : BitVec m) (y : BitVec n) :
    (x ++ y).toNat = x.toNat * 2 ^ n + y.toNat := by
  rw [BitVec.toNat_append, ← Nat.shiftLeft_add_eq_or_of_lt y.isLt, Nat.shiftLeft_eq]

theorem extract_toNat {m : Nat} (w : BitVec m) (s n : Nat) :
    (w.extractLsb' s n).toNat = w.toNat / 2 ^ s % 2 ^ n := by
  rw [BitVec.extractLsb'_toNat, Nat.shiftRight_eq_div_pow]

theorem readByte_toNat (a : Addr) : (readByte a).toNat = a.toNat := by
  simp only [readByte, toNat_append_eq, BitVec.toNat_ofNat]; omega

theorem writeByte_toNat (a : Addr) : (writeByte a).toNat = 128 + a.toNat := by
  simp only [writeByte, toNat_append_eq, BitVec.toNat_ofNat]; omega

theorem getLsbD_toNat {m : Nat} (w : BitVec m) (i : Nat) : w.getLsbD i = decide (w.toNat / 2 ^ i % 2 = 1) := by
  rw [BitVec.getLsbD, Nat.testBit_eq_decide_div_mod_eq]

theorem readByte_bit7 (a : Addr) : (readByte a).getLsbD 7 = false := by
  have h := a.isLt
  rw [getLsbD_toNat, readByte_toNat, decide_eq_false_iff_not]; omega

theorem writeByte_bit7 (a : Addr) : (writeByte a).getLsbD 7 = true := by
  have h := a.isLt
  rw [getLsbD_toNat, writeByte_toNat, decide_eq_true_eq]; omega

theorem writeByte_addr (a : Addr) : (writeByte a).extractLsb' 0 7 = a := by
  have h := a.isLt
  apply BitVec.eq_of_toNat_eq
  rw [extract_toNat, writeByte_toNat]; omega

theorem readByte_addr (a : Addr) : (readByte a).extractLsb' 0 7 = a := by
  have h := a.isLt
  apply BitVec.eq_of_toNat_eq
  rw [extract_toNat, readByte_toNat]; omega

end Sys2Proof
end

