-- ==== Sys2Proof/Laws/Memory.lean ====
section
/-! SUPPORT. The image space: its canonical form, and what presenting a byte sequence makes of it. -/

namespace Sys2Proof.Machine

theorem Memory.wfFrom_ofBytesFrom (bs : List Byte) (i : Nat) : Memory.wfFrom i (Memory.ofBytesFrom i bs) = true := by
  induction bs generalizing i with
  | nil => rfl
  | cons b bs ih =>
    unfold Memory.ofBytesFrom
    split
    · rename_i h
      simp [Memory.wfFrom, h, ih]
    · rfl

/-- The one operation that makes an image yields its canonical form. -/
theorem Memory.wf_ofBytes (bs : List Byte) : (Memory.ofBytes bs).wf = true :=
  Memory.wfFrom_ofBytesFrom bs 0

theorem Memory.lookup_ofBytesFrom_below (bs : List Byte) (i k : Nat) (h : k < i) :
    (Memory.ofBytesFrom i bs).lookup k = none := by
  induction bs generalizing i with
  | nil => rfl
  | cons b bs ih =>
    unfold Memory.ofBytesFrom
    split
    · simp only [Memory.lookup]
      rw [if_neg (by omega)]
      exact ih (i + 1) (by omega)
    · rfl

theorem Memory.lookup_ofBytesFrom (bs : List Byte) (i k : Nat) (h : i + k < imageSpace) :
    (Memory.ofBytesFrom i bs).lookup (i + k) = bs[k]? := by
  induction bs generalizing i k with
  | nil => rfl
  | cons b bs ih =>
    unfold Memory.ofBytesFrom
    rw [if_pos (by omega)]
    simp only [Memory.lookup]
    cases k with
    | zero => simp
    | succ k =>
      rw [if_neg (by omega), show i + (k + 1) = i + 1 + k by omega, ih (i + 1) k (by omega)]
      simp

/-- Two images in canonical form that answer every index alike are equal data. -/
theorem Memory.wfFrom_lookup_below (m : Memory) (lo k : Nat) (hm : m.wfFrom lo = true) (hk : k < lo) :
    m.lookup k = none := by
  induction m generalizing lo with
  | nil => rfl
  | cons e m ih =>
    obtain ⟨a, b⟩ := e
    simp only [Memory.wfFrom, Bool.and_eq_true, decide_eq_true_eq] at hm
    simp only [Memory.lookup]
    rw [if_neg (by omega)]
    exact ih (a + 1) hm.2 (by omega)

end Sys2Proof.Machine
end

