-- ==== Sys2Proof/Laws/State.lean ====
section
/-! SUPPORT. What each primitive does to each field of the state: one theorem per primitive, a rewrite rule for every
field, so that no later proof unfolds a record update. -/

namespace Sys2Proof.Machine

@[simp] theorem State.emit_fields (s : State) (e : Event) :
    (s.emit e).burst = s.burst ∧ (s.emit e).sromId = s.sromId ∧ (s.emit e).buf = s.buf ∧
    (s.emit e).sampleX = s.sampleX ∧ (s.emit e).sampleY = s.sampleY ∧ (s.emit e).scanCount = s.scanCount ∧
    (s.emit e).scanSnapshot = s.scanSnapshot ∧ (s.emit e).scanLast = s.scanLast ∧ (s.emit e).cs = s.cs ∧
    (s.emit e).resOk = s.resOk ∧ (s.emit e).resByte = s.resByte ∧ (s.emit e).resRate = s.resRate ∧
    (s.emit e).cmdreg = s.cmdreg ∧ (s.emit e).seq = s.seq ∧ (s.emit e).trace = s.trace ++ [e] ∧
    (s.emit e).cfg = s.cfg ∧ (s.emit e).grain = s.grain ∧ (s.emit e).drives = s.drives ∧
    (s.emit e).image = s.image ∧ (s.emit e).imgDrawn = s.imgDrawn ∧ (s.emit e).dev = s.dev ∧
    (s.emit e).devDrawn = s.devDrawn ∧ (s.emit e).clk = s.clk ∧ (s.emit e).clkDrawn = s.clkDrawn ∧
    (s.emit e).resets = s.resets := by
  and_intros <;> rfl

@[simp] theorem State.sel_fields (s : State) :
    (s.sel).burst = s.burst ∧ (s.sel).sromId = s.sromId ∧ (s.sel).buf = s.buf ∧ (s.sel).sampleX = s.sampleX ∧
    (s.sel).sampleY = s.sampleY ∧ (s.sel).scanCount = s.scanCount ∧ (s.sel).scanSnapshot = s.scanSnapshot ∧
    (s.sel).scanLast = s.scanLast ∧ (s.sel).cs = .asserted ∧ (s.sel).resOk = s.resOk ∧
    (s.sel).resByte = s.resByte ∧ (s.sel).resRate = s.resRate ∧ (s.sel).cmdreg = s.cmdreg ∧ (s.sel).seq = s.seq ∧
    (s.sel).trace = s.trace ++ [.sel] ∧ (s.sel).cfg = s.cfg ∧ (s.sel).grain = s.grain ∧ (s.sel).drives = s.drives ∧
    (s.sel).image = s.image ∧ (s.sel).imgDrawn = s.imgDrawn ∧ (s.sel).dev = s.dev ∧ (s.sel).devDrawn = s.devDrawn ∧
    (s.sel).clk = s.clk ∧ (s.sel).clkDrawn = s.clkDrawn ∧ (s.sel).resets = s.resets := by
  and_intros <;> rfl

@[simp] theorem State.desel_fields (s : State) :
    (s.desel).burst = s.burst ∧ (s.desel).sromId = s.sromId ∧ (s.desel).buf = s.buf ∧
    (s.desel).sampleX = s.sampleX ∧ (s.desel).sampleY = s.sampleY ∧ (s.desel).scanCount = s.scanCount ∧
    (s.desel).scanSnapshot = s.scanSnapshot ∧ (s.desel).scanLast = s.scanLast ∧ (s.desel).cs = .deasserted ∧
    (s.desel).resOk = s.resOk ∧ (s.desel).resByte = s.resByte ∧ (s.desel).resRate = s.resRate ∧
    (s.desel).cmdreg = s.cmdreg ∧ (s.desel).seq = s.seq ∧ (s.desel).trace = s.trace ++ [.desel] ∧
    (s.desel).cfg = s.cfg ∧ (s.desel).grain = s.grain ∧ (s.desel).drives = s.drives ∧ (s.desel).image = s.image ∧
    (s.desel).imgDrawn = s.imgDrawn ∧ (s.desel).dev = s.dev ∧ (s.desel).devDrawn = s.devDrawn ∧
    (s.desel).clk = s.clk ∧ (s.desel).clkDrawn = s.clkDrawn ∧ (s.desel).resets = s.resets := by
  and_intros <;> rfl

@[simp] theorem State.send_fields (s : State) (b : Byte) :
    (s.send b).burst = s.burst ∧ (s.send b).sromId = s.sromId ∧ (s.send b).buf = s.buf ∧
    (s.send b).sampleX = s.sampleX ∧ (s.send b).sampleY = s.sampleY ∧ (s.send b).scanCount = s.scanCount ∧
    (s.send b).scanSnapshot = s.scanSnapshot ∧ (s.send b).scanLast = s.scanLast ∧ (s.send b).cs = s.cs ∧
    (s.send b).resOk = s.resOk ∧ (s.send b).resByte = s.resByte ∧ (s.send b).resRate = s.resRate ∧
    (s.send b).cmdreg = s.cmdreg ∧ (s.send b).seq = s.seq ∧ (s.send b).trace = s.trace ++ [.xfer b (s.answer 0)] ∧
    (s.send b).cfg = s.cfg ∧ (s.send b).grain = s.grain ∧ (s.send b).drives = s.drives ∧
    (s.send b).image = s.image ∧ (s.send b).imgDrawn = s.imgDrawn ∧ (s.send b).dev = s.dev.tail ∧
    (s.send b).devDrawn = s.devDrawn + 1 ∧ (s.send b).clk = s.clk ∧ (s.send b).clkDrawn = s.clkDrawn ∧
    (s.send b).resets = s.resets := by
  and_intros <;> rfl

@[simp] theorem State.recv_byte (s : State) : s.recv.1 = s.answer 0 := rfl

@[simp] theorem State.recv_fields (s : State) :
    (s.recv.2).burst = s.burst ∧ (s.recv.2).sromId = s.sromId ∧ (s.recv.2).buf = s.buf ∧
    (s.recv.2).sampleX = s.sampleX ∧ (s.recv.2).sampleY = s.sampleY ∧ (s.recv.2).scanCount = s.scanCount ∧
    (s.recv.2).scanSnapshot = s.scanSnapshot ∧ (s.recv.2).scanLast = s.scanLast ∧ (s.recv.2).cs = s.cs ∧
    (s.recv.2).resOk = s.resOk ∧ (s.recv.2).resByte = s.resByte ∧ (s.recv.2).resRate = s.resRate ∧
    (s.recv.2).cmdreg = s.cmdreg ∧ (s.recv.2).seq = s.seq ∧
    (s.recv.2).trace = s.trace ++ [.xfer s.cfg.fillByte (s.answer 0)] ∧ (s.recv.2).cfg = s.cfg ∧
    (s.recv.2).grain = s.grain ∧ (s.recv.2).drives = s.drives ∧ (s.recv.2).image = s.image ∧
    (s.recv.2).imgDrawn = s.imgDrawn ∧ (s.recv.2).dev = s.dev.tail ∧ (s.recv.2).devDrawn = s.devDrawn + 1 ∧
    (s.recv.2).clk = s.clk ∧ (s.recv.2).clkDrawn = s.clkDrawn ∧ (s.recv.2).resets = s.resets := by
  and_intros <;> rfl

@[simp] theorem State.waitUs_fields (s : State) (d : Nat) :
    (s.waitUs d).burst = s.burst ∧ (s.waitUs d).sromId = s.sromId ∧ (s.waitUs d).buf = s.buf ∧
    (s.waitUs d).sampleX = s.sampleX ∧ (s.waitUs d).sampleY = s.sampleY ∧ (s.waitUs d).scanCount = s.scanCount ∧
    (s.waitUs d).scanSnapshot = s.scanSnapshot ∧ (s.waitUs d).scanLast = s.scanLast ∧ (s.waitUs d).cs = s.cs ∧
    (s.waitUs d).resOk = s.resOk ∧ (s.waitUs d).resByte = s.resByte ∧ (s.waitUs d).resRate = s.resRate ∧
    (s.waitUs d).cmdreg = s.cmdreg ∧ (s.waitUs d).seq = s.seq ∧ (s.waitUs d).trace = s.trace ++ [.wait d] ∧
    (s.waitUs d).cfg = s.cfg ∧ (s.waitUs d).grain = s.grain ∧ (s.waitUs d).drives = s.drives ∧
    (s.waitUs d).image = s.image ∧ (s.waitUs d).imgDrawn = s.imgDrawn ∧ (s.waitUs d).dev = s.dev ∧
    (s.waitUs d).devDrawn = s.devDrawn ∧ (s.waitUs d).clk = s.clk ∧ (s.waitUs d).clkDrawn = s.clkDrawn ∧
    (s.waitUs d).resets = s.resets := by
  and_intros <;> rfl

@[simp] theorem State.imgRead_byte (s : State) (i : Nat) : (s.imgRead i).1 = s.imageByte i 0 := rfl

@[simp] theorem State.imgRead_fields (s : State) (i : Nat) :
    ((s.imgRead i).2).burst = s.burst ∧ ((s.imgRead i).2).sromId = s.sromId ∧ ((s.imgRead i).2).buf = s.buf ∧
    ((s.imgRead i).2).sampleX = s.sampleX ∧ ((s.imgRead i).2).sampleY = s.sampleY ∧
    ((s.imgRead i).2).scanCount = s.scanCount ∧ ((s.imgRead i).2).scanSnapshot = s.scanSnapshot ∧
    ((s.imgRead i).2).scanLast = s.scanLast ∧ ((s.imgRead i).2).cs = s.cs ∧ ((s.imgRead i).2).resOk = s.resOk ∧
    ((s.imgRead i).2).resByte = s.resByte ∧ ((s.imgRead i).2).resRate = s.resRate ∧
    ((s.imgRead i).2).cmdreg = s.cmdreg ∧ ((s.imgRead i).2).seq = s.seq ∧
    ((s.imgRead i).2).trace = s.trace ++ [.img i (s.imageByte i 0)] ∧ ((s.imgRead i).2).cfg = s.cfg ∧
    ((s.imgRead i).2).grain = s.grain ∧ ((s.imgRead i).2).drives = s.drives ∧ ((s.imgRead i).2).image = s.image ∧
    ((s.imgRead i).2).imgDrawn = s.imgDrawn + 1 ∧ ((s.imgRead i).2).dev = s.dev ∧
    ((s.imgRead i).2).devDrawn = s.devDrawn ∧ ((s.imgRead i).2).clk = s.clk ∧
    ((s.imgRead i).2).clkDrawn = s.clkDrawn ∧ ((s.imgRead i).2).resets = s.resets := by
  and_intros <;> rfl

@[simp] theorem State.nowMs_value (s : State) : s.nowMs.1 = s.clockAt 0 := rfl

@[simp] theorem State.nowMs_fields (s : State) :
    (s.nowMs.2).burst = s.burst ∧ (s.nowMs.2).sromId = s.sromId ∧ (s.nowMs.2).buf = s.buf ∧
    (s.nowMs.2).sampleX = s.sampleX ∧ (s.nowMs.2).sampleY = s.sampleY ∧ (s.nowMs.2).scanCount = s.scanCount ∧
    (s.nowMs.2).scanSnapshot = s.scanSnapshot ∧ (s.nowMs.2).scanLast = s.scanLast ∧ (s.nowMs.2).cs = s.cs ∧
    (s.nowMs.2).resOk = s.resOk ∧ (s.nowMs.2).resByte = s.resByte ∧ (s.nowMs.2).resRate = s.resRate ∧
    (s.nowMs.2).cmdreg = s.cmdreg ∧ (s.nowMs.2).seq = s.seq ∧ (s.nowMs.2).trace = s.trace ++ [.now (s.clockAt 0)] ∧
    (s.nowMs.2).cfg = s.cfg ∧ (s.nowMs.2).grain = s.grain ∧ (s.nowMs.2).drives = s.drives ∧
    (s.nowMs.2).image = s.image ∧ (s.nowMs.2).imgDrawn = s.imgDrawn ∧ (s.nowMs.2).dev = s.dev ∧
    (s.nowMs.2).devDrawn = s.devDrawn ∧ (s.nowMs.2).clk = s.clk.tail ∧ (s.nowMs.2).clkDrawn = s.clkDrawn + 1 ∧
    (s.nowMs.2).resets = s.resets := by
  and_intros <;> rfl

@[simp] theorem State.diag_fields (s : State) (v : Nat) :
    (s.diag v).burst = s.burst ∧ (s.diag v).sromId = s.sromId ∧ (s.diag v).buf = s.buf ∧
    (s.diag v).sampleX = s.sampleX ∧ (s.diag v).sampleY = s.sampleY ∧ (s.diag v).scanCount = s.scanCount ∧
    (s.diag v).scanSnapshot = s.scanSnapshot ∧ (s.diag v).scanLast = s.scanLast ∧ (s.diag v).cs = s.cs ∧
    (s.diag v).resOk = s.resOk ∧ (s.diag v).resByte = s.resByte ∧ (s.diag v).resRate = s.resRate ∧
    (s.diag v).cmdreg = s.cmdreg ∧ (s.diag v).seq = s.seq ∧ (s.diag v).trace = s.trace ++ [.diag v] ∧
    (s.diag v).cfg = s.cfg ∧ (s.diag v).grain = s.grain ∧ (s.diag v).drives = s.drives ∧
    (s.diag v).image = s.image ∧ (s.diag v).imgDrawn = s.imgDrawn ∧ (s.diag v).dev = s.dev ∧
    (s.diag v).devDrawn = s.devDrawn ∧ (s.diag v).clk = s.clk ∧ (s.diag v).clkDrawn = s.clkDrawn ∧
    (s.diag v).resets = s.resets := by
  and_intros <;> rfl

@[simp] theorem State.noteRead_fields (s : State) (a : Addr) :
    (s.noteRead a).burst = burstAfterRead s.cfg a s.burst ∧ (s.noteRead a).sromId = s.sromId ∧
    (s.noteRead a).buf = s.buf ∧ (s.noteRead a).sampleX = s.sampleX ∧ (s.noteRead a).sampleY = s.sampleY ∧
    (s.noteRead a).scanCount = s.scanCount ∧ (s.noteRead a).scanSnapshot = s.scanSnapshot ∧
    (s.noteRead a).scanLast = s.scanLast ∧ (s.noteRead a).cs = s.cs ∧ (s.noteRead a).resOk = s.resOk ∧
    (s.noteRead a).resByte = s.resByte ∧ (s.noteRead a).resRate = s.resRate ∧ (s.noteRead a).cmdreg = s.cmdreg ∧
    (s.noteRead a).seq = s.seq ∧ (s.noteRead a).trace = s.trace ∧ (s.noteRead a).cfg = s.cfg ∧
    (s.noteRead a).grain = s.grain ∧ (s.noteRead a).drives = s.drives ∧ (s.noteRead a).image = s.image ∧
    (s.noteRead a).imgDrawn = s.imgDrawn ∧ (s.noteRead a).dev = s.dev ∧ (s.noteRead a).devDrawn = s.devDrawn ∧
    (s.noteRead a).clk = s.clk ∧ (s.noteRead a).clkDrawn = s.clkDrawn ∧ (s.noteRead a).resets = s.resets := by
  and_intros <;> rfl

@[simp] theorem State.latch_fields (s : State) (r : Request) :
    (s.latch r).burst = s.burst ∧ (s.latch r).sromId = s.sromId ∧ (s.latch r).buf = s.buf ∧
    (s.latch r).sampleX = s.sampleX ∧ (s.latch r).sampleY = s.sampleY ∧ (s.latch r).scanCount = s.scanCount ∧
    (s.latch r).scanSnapshot = s.scanSnapshot ∧ (s.latch r).scanLast = s.scanLast ∧ (s.latch r).cs = s.cs ∧
    (s.latch r).resOk = s.resOk ∧ (s.latch r).resByte = s.resByte ∧ (s.latch r).resRate = s.resRate ∧
    (s.latch r).seq = s.seq ∧ (s.latch r).trace = s.trace ∧ (s.latch r).cfg = s.cfg ∧ (s.latch r).grain = s.grain ∧
    (s.latch r).drives = s.drives ∧ (s.latch r).image = s.image ∧ (s.latch r).imgDrawn = s.imgDrawn ∧
    (s.latch r).dev = s.dev ∧ (s.latch r).devDrawn = s.devDrawn ∧ (s.latch r).clk = s.clk ∧
    (s.latch r).clkDrawn = s.clkDrawn ∧ (s.latch r).resets = s.resets := by
  cases r <;> (and_intros <;> rfl)

@[simp] theorem State.applyReset_fields (s : State) :
    (s.applyReset).burst = false ∧ (s.applyReset).sromId = (Config.freeReset s.resets).sromId ∧
    (s.applyReset).buf = (Config.freeReset s.resets).buf ∧
    (s.applyReset).sampleX = (Config.freeReset s.resets).sampleX ∧
    (s.applyReset).sampleY = (Config.freeReset s.resets).sampleY ∧ (s.applyReset).scanCount = 0 ∧
    (s.applyReset).scanSnapshot = 0 ∧ (s.applyReset).scanLast = 0 ∧ (s.applyReset).cs = .deasserted ∧
    (s.applyReset).resOk = (Config.freeReset s.resets).resOk ∧
    (s.applyReset).resByte = (Config.freeReset s.resets).resByte ∧
    (s.applyReset).resRate = (Config.freeReset s.resets).resRate % 2 ^ s.cfg.countW ∧
    (s.applyReset).cmdreg = (Config.freeReset s.resets).cmdreg ∧ (s.applyReset).seq = .idle ∧
    (s.applyReset).trace = [] ∧ (s.applyReset).cfg = s.cfg ∧ (s.applyReset).grain = s.grain ∧
    (s.applyReset).drives = s.drives ∧ (s.applyReset).image = s.image ∧ (s.applyReset).imgDrawn = s.imgDrawn ∧
    (s.applyReset).dev = s.dev ∧ (s.applyReset).devDrawn = s.devDrawn ∧ (s.applyReset).clk = s.clk ∧
    (s.applyReset).clkDrawn = s.clkDrawn ∧ (s.applyReset).resets = s.resets + 1 := by
  and_intros <;> rfl

@[simp] theorem State.takeDrive_fields (s : State) :
    (s.takeDrive).burst = s.burst ∧ (s.takeDrive).sromId = s.sromId ∧ (s.takeDrive).buf = s.buf ∧
    (s.takeDrive).sampleX = s.sampleX ∧ (s.takeDrive).sampleY = s.sampleY ∧ (s.takeDrive).scanCount = s.scanCount ∧
    (s.takeDrive).scanSnapshot = s.scanSnapshot ∧ (s.takeDrive).scanLast = s.scanLast ∧ (s.takeDrive).cs = s.cs ∧
    (s.takeDrive).resOk = s.resOk ∧ (s.takeDrive).resByte = s.resByte ∧ (s.takeDrive).resRate = s.resRate ∧
    (s.takeDrive).cmdreg = s.cmdreg ∧ (s.takeDrive).seq = s.seq ∧ (s.takeDrive).trace = s.trace ∧
    (s.takeDrive).cfg = s.cfg ∧ (s.takeDrive).grain = s.grain ∧ (s.takeDrive).drives = s.drives.tail ∧
    (s.takeDrive).imgDrawn = s.imgDrawn ∧ (s.takeDrive).dev = s.dev ∧ (s.takeDrive).devDrawn = s.devDrawn ∧
    (s.takeDrive).clk = s.clk ∧ (s.takeDrive).clkDrawn = s.clkDrawn ∧ (s.takeDrive).resets = s.resets := by
  and_intros <;> rfl

end Sys2Proof.Machine
end

