-- ==== Sys2Proof/Laws/Ops.lean ====
section
/-! SUPPORT. What the shared operations do, in one equation each: later proofs cite these and unfold nothing. -/

namespace Sys2Proof.Machine

open Sys2Proof.Safety

/-- After `k` exchanges the next answers are the later ones of before. -/
@[simp] theorem answerOf_drop (dev : List Byte) (n k j : Nat) :
    answerOf (dev.drop k) (n + k) j = answerOf dev n (k + j) := by
  simp only [answerOf, List.getElem?_drop, Nat.add_assoc]

/-- The same, where the number of exchanges made is written in another way. -/
theorem answerOf_drop_of (dev : List Byte) (n m k j : Nat) (h : m = n + k) :
    answerOf (dev.drop k) m j = answerOf dev n (k + j) := by
  rw [h, answerOf_drop]

/-- After one reading the next readings are the later ones of before. -/
@[simp] theorem readingOf_tail (clk : List Nat) (n j : Nat) :
    readingOf clk.tail (n + 1) j = readingOf clk n (j + 1) := by
  rw [← List.drop_one]
  simp only [readingOf, List.getElem?_drop, Nat.add_assoc, Nat.add_comm 1 j]

@[simp] theorem busDone_answer (s : State) (k j : Nat) (es : List Event) :
    (busDone s k es).answer j = s.answer (k + j) := answerOf_drop ..

/-- Two bus activities in a row are one. -/
theorem busDone_busDone (s : State) (k j : Nat) (es fs : List Event) :
    busDone (busDone s k es) j fs = busDone s (k + j) (es ++ fs) := by
  simp [busDone, Nat.add_assoc]

/-- READ frame (20_memory.md R53). -/
theorem readFrame_eq (a : Addr) (s : State) :
    readFrame a s = (s.answer 1, busDone s 2 (readFrameEvents s.cfg a (s.answer 0) (s.answer 1))) := by
  simp [readFrame, State.sel, State.send, State.recv, State.exchange, State.waitUs, State.emit, State.desel,
    State.answer, busDone, readFrameEvents, readByte, ← List.drop_one]

/-- WRITE frame (20_memory.md R54). -/
theorem writeFrame_eq (a : Addr) (d : Byte) (s : State) :
    writeFrame a d s = busDone s 2 (writeFrameEvents s.cfg a d (s.answer 0) (s.answer 1)) := by
  simp [writeFrame, State.sel, State.send, State.exchange, State.waitUs, State.emit, State.desel, State.answer,
    busDone, writeFrameEvents, writeByte, ← List.drop_one]

/-- `RdReg(a)` (41_register_access.md R130). -/
theorem rdReg_eq (a : Addr) (s : State) :
    rdReg a s = (s.answer 1, { busDone s 2 (readEvents s.cfg a (s.answer 0) (s.answer 1)) with
      burst := burstAfterRead s.cfg a s.burst }) := by
  simp [rdReg, readFrame_eq, State.waitUs, State.emit, State.noteRead, busDone, readEvents]

/-- `WrReg(a, d)` (41_register_access.md R131). -/
theorem wrReg_eq (a : Addr) (d : Byte) (s : State) :
    wrReg a d s = busDone s 2 (writeEvents s.cfg a d (s.answer 0) (s.answer 1)) := by
  simp [wrReg, State.waitUs, State.emit, writeFrame_eq, busDone, writeEvents]

/-- BURST-READ frame (20_memory.md R55). -/
theorem burstFrame_eq (s : State) :
    burstFrame s = { busDone s 7 (burstFrameEvents s.cfg s.answer) with buf := bufOf s.answer } := by
  simp [burstFrame, State.sel, State.send, State.recv, State.recvBuf, State.exchange, State.waitUs, State.emit,
    State.desel, State.answer, busDone, burstFrameEvents, bufOf, setBuf, ← List.drop_one, List.range, List.range.loop,
    State.answer.eq_1]

/-- UPLOAD's loop (42_sensor_control.md R143). -/
theorem sendImageBytes_eq (n i : Nat) (s : State) :
    sendImageBytes n i s = { s with
      dev := s.dev.drop n, devDrawn := s.devDrawn + n, imgDrawn := s.imgDrawn + n,
      trace := s.trace ++ (List.range n).flatMap (fun j =>
        [.img (i + j) (s.imageByte (i + j) j), .xfer (s.imageByte (i + j) j) (s.answer j), .wait s.cfg.tLoadByte]) } := by
  induction n generalizing i s with
  | zero => simp [sendImageBytes]
  | succ n ih =>
    rw [sendImageBytes, ih]
    simp [sendImageByte, State.imgRead, State.send, State.exchange, State.waitUs, State.emit, State.imageByte,
      State.answer, List.range_succ_eq_map, List.flatMap_map, Nat.add_comm, Nat.add_left_comm, ← List.drop_one]

/-- SROM-LOAD frame (20_memory.md R56). -/
theorem sromFrame_eq (n : Nat) (s : State) :
    sromFrame n s = { busDone s (n + 1) (sromFrameEvents s.cfg n (fun i => s.imageByte i i) s.answer) with
      imgDrawn := s.imgDrawn + n } := by
  simp [sromFrame, sendImageBytes_eq, State.sel, State.send, State.exchange, State.waitUs, State.emit, State.desel,
    State.answer, State.imageByte, busDone, sromFrameEvents, Nat.add_comm, Nat.add_left_comm, ← List.drop_one]

/-- `Poll()` without the instrumentation (44_instrumentation.md R170). -/
theorem poll_absent (s : State) (h : s.cfg.hasInstr = false) : poll s = s := by
  simp [poll, h]

/-- `Poll()` that closes the window (44_instrumentation.md R170). -/
theorem poll_closing (s : State) (h : s.cfg.hasInstr = true)
    (hw : windowCloses s.cfg (s.clockAt 0) s.scanLast = true) :
    poll s = { s with
      clk := s.clk.tail, clkDrawn := s.clkDrawn + 1, scanCount := 0, scanSnapshot := nextCount s.cfg s.scanCount,
      scanLast := s.clockAt 0, trace := s.trace ++ [.now (s.clockAt 0), .diag (nextCount s.cfg s.scanCount)] } := by
  simp only [State.clockAt] at hw
  simp [poll, h, State.nowMs, State.clockAt, State.diag, State.emit, hw]

/-- `Poll()` within the window (44_instrumentation.md R170). -/
theorem poll_within (s : State) (h : s.cfg.hasInstr = true)
    (hw : windowCloses s.cfg (s.clockAt 0) s.scanLast = false) :
    poll s = { s with
      clk := s.clk.tail, clkDrawn := s.clkDrawn + 1, scanCount := nextCount s.cfg s.scanCount,
      trace := s.trace ++ [.now (s.clockAt 0)] } := by
  simp only [State.clockAt] at hw
  simp [poll, h, State.nowMs, State.clockAt, hw]

/-- What `Poll()` can do, in one line for a caller: the counters and the clock's readings move, and some events of the
instrumentation are added. -/
theorem poll_cases (s : State) : ∃ count snapshot last clk drawn es,
    poll s = { s with
      scanCount := count, scanSnapshot := snapshot, scanLast := last, clk := clk, clkDrawn := drawn,
      trace := s.trace ++ es } ∧ es.filter isBusEvent = [] := by
  cases h : s.cfg.hasInstr with
  | false =>
    exact ⟨s.scanCount, s.scanSnapshot, s.scanLast, s.clk, s.clkDrawn, [], by rw [poll_absent s h]; simp, rfl⟩
  | true =>
    cases hw : windowCloses s.cfg (s.clockAt 0) s.scanLast with
    | false => exact ⟨_, _, _, _, _, _, poll_within s h hw, rfl⟩
    | true => exact ⟨_, _, _, _, _, _, poll_closing s h hw, rfl⟩

/-- `Poll()` leaves the configuration, `BURST` and the device's answers alone. -/
theorem poll_keeps (s : State) :
    (poll s).cfg = s.cfg ∧ (poll s).burst = s.burst ∧ (poll s).dev = s.dev ∧ (poll s).devDrawn = s.devDrawn ∧
    (poll s).answer = s.answer := by
  obtain ⟨_, _, _, _, _, _, h, -⟩ := poll_cases s
  rw [h]
  exact ⟨rfl, rfl, rfl, rfl, rfl⟩

/-- The rate output with the instrumentation and without it (10_state.md R28). -/
@[simp] theorem rateOutput_present (s : State) (h : s.cfg.hasInstr = true) : s.rateOutput = some s.resRate := by
  simp [State.rateOutput, h]

@[simp] theorem rateOutput_absent (s : State) (h : s.cfg.hasInstr = false) : s.rateOutput = none := by
  simp [State.rateOutput, h]

/-- An SROM-LOAD frame's events depend on the answers one by one. -/
theorem sromFrameEvents_congr (c : Config) (n : Nat) (byte : Nat → Byte) {f g : Nat → Byte} (h : ∀ k, f k = g k) :
    sromFrameEvents c n byte f = sromFrameEvents c n byte g := by
  rw [show f = g from funext h]

/-- A register that a configuration keeps apart from the motion-burst register: reading it leaves `BURST` false. -/
theorem burstAfterRead_ne {c : Config} {a : Addr} {burst : Bool} (h : a ≠ c.regMotionBurst) :
    burstAfterRead c a burst = false := by
  simp [burstAfterRead, h]

@[simp] theorem burstAfterRead_false (c : Config) (a : Addr) : burstAfterRead c a false = false := by
  simp [burstAfterRead]

/-- R11 (c) of 00_scope.md, read from `Config.ok`. -/
theorem ok_addresses {c : Config} (h : c.ok = true) :
    c.regMotion ≠ c.regMotionBurst ∧ c.regCpi ≠ c.regMotionBurst ∧ c.regSromId ≠ c.regMotionBurst := by
  simp only [Config.ok, List.all_cons, List.all_nil, Bool.and_eq_true, Bool.and_true, bne_iff_ne] at h
  exact ⟨h.2.1, h.2.2.2.2.2.2.1, h.2.2.2.2.2.2.2.2.2⟩

end Sys2Proof.Machine
end

