-- ==== Sys2Proof/Laws/PerInstr.lean ====
section
/-! SUPPORT. What is said of every instruction, one lemma per constructor: the round trip through the encoding. -/

namespace Sys2Proof.Laws.RoundTrip

/-- In every configuration that has the instruction, its encoding decodes to it, operands and all. -/
def Statement (i : Instr) : Prop := ∀ c : Config, i.wf c = true → decode c (encode c i) = .ok i

theorem rdreg (a : Addr) : Statement (.rdreg a) := by
  intro c _
  have h := a.isLt
  have ha : opA (0x1#4 ++ 0#12 ++ 0#1 ++ a ++ 0#8) = a := by
    apply BitVec.eq_of_toNat_eq
    simp only [opA, extract_toNat, toNat_append_eq, BitVec.toNat_ofNat]; omega
  simp only [decode, encode, decodeCommand, ← BitVec.toNat_inj, extract_toNat, toNat_append_eq, BitVec.toNat_ofNat,
    BitVec.reduceToNat]
  rw [if_pos (by omega), ha]

theorem wrreg (a : Addr) (d : Byte) : Statement (.wrreg a d) := by
  intro c _
  have h := a.isLt
  have h' := d.isLt
  have ha : opA (0x2#4 ++ 0#12 ++ 0#1 ++ a ++ d) = a := by
    apply BitVec.eq_of_toNat_eq
    simp only [opA, extract_toNat, toNat_append_eq, BitVec.toNat_ofNat]; omega
  have hd : opD (0x2#4 ++ 0#12 ++ 0#1 ++ a ++ d) = d := by
    apply BitVec.eq_of_toNat_eq
    simp only [opD, extract_toNat, toNat_append_eq, BitVec.toNat_ofNat]; omega
  simp only [decode, encode, decodeCommand, ← BitVec.toNat_inj, extract_toNat, toNat_append_eq, BitVec.toNat_ofNat,
    BitVec.reduceToNat]
  rw [if_neg (by omega), if_pos (by omega), ha, hd]

theorem getcpi : Statement .getcpi := fun _ _ => rfl

theorem setcpi (d : Byte) : Statement (.setcpi d) := by
  intro c _
  have h := d.isLt
  have hd : opD (0x4#4 ++ 0#12 ++ 0#8 ++ d) = d := by
    apply BitVec.eq_of_toNat_eq
    simp only [opD, extract_toNat, toNat_append_eq, BitVec.toNat_ofNat]; omega
  simp only [decode, encode, decodeCommand, ← BitVec.toNat_inj, extract_toNat, toNat_append_eq, BitVec.toNat_ofNat,
    BitVec.reduceToNat]
  rw [if_neg (by omega), if_neg (by omega), if_neg (by omega), if_pos (by omega), hd]

theorem init : Statement .init := fun _ _ => rfl

theorem upload (n : Half) : Statement (.upload n) := by
  intro c _
  have h := n.isLt
  have hn : opN (0x6#4 ++ 0#12 ++ n) = n := by
    apply BitVec.eq_of_toNat_eq
    simp only [opN, extract_toNat, toNat_append_eq, BitVec.toNat_ofNat]; omega
  simp only [decode, encode, decodeCommand, ← BitVec.toNat_inj, extract_toNat, toNat_append_eq, BitVec.toNat_ofNat,
    BitVec.reduceToNat]
  rw [if_neg (by omega), if_neg (by omega), if_neg (by omega), if_neg (by omega), if_neg (by omega),
    if_pos (by omega), hn]

theorem rdmot : Statement .rdmot := fun _ _ => rfl

theorem rdburst : Statement .rdburst := fun _ _ => rfl

theorem scanrate : Statement .scanrate := by
  intro c h
  have e : decode c (encode c .scanrate) = if c.hasInstr then .ok .scanrate else .error .noInstrumentation := rfl
  rw [e]
  exact if_pos h

theorem wireRead (a : Addr) : Statement (.wireRead a) := by
  intro c _
  simp only [decode, encode, decodeFrame8, readByte_bit7, readByte_addr]
  rfl

theorem wireWrite (a : Addr) (d : Byte) : Statement (.wireWrite a d) := by
  intro c _
  have h := a.isLt
  have h' := d.isLt
  have h15 : (writeByte a ++ d).getLsbD 15 = true := by
    rw [getLsbD_toNat, toNat_append_eq, writeByte_toNat, decide_eq_true_eq]; omega
  have ha : (writeByte a ++ d).extractLsb' 8 7 = a := by
    apply BitVec.eq_of_toNat_eq
    rw [extract_toNat, toNat_append_eq, writeByte_toNat]; omega
  have hd : (writeByte a ++ d).extractLsb' 0 8 = d := by
    apply BitVec.eq_of_toNat_eq
    rw [extract_toNat, toNat_append_eq, writeByte_toNat]; omega
  simp only [decode, encode, decodeFrame16]
  rw [if_pos h15, ha, hd]

theorem wireBurstRead : Statement .wireBurstRead := by
  intro c _
  simp [decode, encode, decodeFrame8]

theorem wireSromLoad (n : Half) : Statement (.wireSromLoad n) := by
  intro c _
  simp [decode, encode, decodeFrame8]

end Sys2Proof.Laws.RoundTrip
end

