-- ==== Sys2Proof/Laws/Step.lean ====
section
/-! SUPPORT. Everything a step can do, said once; and what a primitive and a register transfer leave alone. -/

namespace Sys2Proof.Machine

/-- A step that answers a next state resets, runs a primitive, waits, runs a whole command, or starts one. -/
theorem step_cases {s t : State} (h : step s = .next t) :
    (s.drive.rst = true ∧ t = s.takeDrive.applyReset) ∨
    (s.drive.rst = false ∧
      ((∃ k rest rx, s.seq = .run k rest rx ∧ t = runPrimitive k rest rx s.takeDrive) ∨
       (s.seq = .idle ∧ s.drive.request = none ∧ t = s.takeDrive) ∨
       (∃ r i, s.seq = .idle ∧ s.drive.request = some r ∧ decode s.cfg r = .ok i ∧ s.grain = .command ∧
          exec i (s.takeDrive.latch r) = .next t) ∨
       (∃ r i, s.seq = .idle ∧ s.drive.request = some r ∧ decode s.cfg r = .ok i ∧ s.grain = .primitive ∧
          t = startCommand i (s.takeDrive.latch r)))) := by
  simp only [step, cycle] at h
  split at h
  · cases h; simp_all
  · split at h
    · cases h; simp_all
    · split at h
      · cases h; simp_all
      · simp only [offer] at h
        split at h
        · cases h
        · split at h
          · simp_all
          · cases h; simp_all

/-- A register transfer touches neither the trace, nor the pin, nor the environment. -/
theorem doTransfer_keeps (t : Transfer) (s : State) (rx : List Byte) (rest : List Micro) :
    (doTransfer t s rx rest).1.trace = s.trace ∧ (doTransfer t s rx rest).1.cs = s.cs ∧
    (doTransfer t s rx rest).1.cfg = s.cfg ∧ (doTransfer t s rx rest).1.image = s.image ∧
    (doTransfer t s rx rest).1.drives = s.drives := by
  cases t
  case motionTest => simp only [doTransfer]; split <;> simp
  all_goals simp [doTransfer]

theorem doTransfers_keeps (ts : List Transfer) (s : State) (rx : List Byte) (rest : List Micro) :
    (doTransfers ts s rx rest).1.trace = s.trace ∧ (doTransfers ts s rx rest).1.cs = s.cs ∧
    (doTransfers ts s rx rest).1.cfg = s.cfg ∧ (doTransfers ts s rx rest).1.image = s.image ∧
    (doTransfers ts s rx rest).1.drives = s.drives := by
  induction ts generalizing s rest with
  | nil => simp [doTransfers]
  | cons t ts ih =>
    rw [doTransfers]
    have h := ih (doTransfer t s rx rest).1 (doTransfer t s rx rest).2
    simpa [doTransfer_keeps] using h

/-- The transfers of a step leave the primitives still to come, or cut them off. -/
theorem doTransfers_rest (ts : List Transfer) (s : State) (rx : List Byte) (rest : List Micro) :
    (doTransfers ts s rx rest).2 = rest ∨ (doTransfers ts s rx rest).2 = [] ∧ Transfer.motionTest ∈ ts := by
  induction ts generalizing s rest with
  | nil => simp [doTransfers]
  | cons t ts ih =>
    rw [doTransfers]
    have h1 : (doTransfer t s rx rest).2 = rest ∨ (doTransfer t s rx rest).2 = [] ∧ t = .motionTest := by
      cases t <;> simp [doTransfer]
      split <;> simp
    have h2 := ih (doTransfer t s rx rest).1 (doTransfer t s rx rest).2
    rcases h1 with h1 | ⟨h1, ht⟩ <;> rw [h1] at h2 ⊢
    · exact h2.imp id (fun h => ⟨h.1, by simp [h.2]⟩)
    · exact .inr ⟨h2.elim id And.left, by simp [ht]⟩

/-- A primitive changes neither the configuration, nor the host's drives, nor the image. -/
theorem doPrim_keeps (p : Prim) (s : State) (rx : List Byte) :
    (doPrim p s rx).1.cfg = s.cfg ∧ (doPrim p s rx).1.image = s.image ∧ (doPrim p s rx).1.drives = s.drives ∧
    ∃ es, (doPrim p s rx).1.trace = s.trace ++ es := by
  obtain ⟨_, _, _, _, _, _, h, -⟩ := poll_cases s
  cases p <;> simp [doPrim, h]

end Sys2Proof.Machine
end

