-- ==== Sys2Proof/Laws/Trace.lean ====
section
/-! SUPPORT. The measures of a trace (its waits, its exchanges, its shape, its chip-select level) over concatenation
and over the spec's event sequences. -/

namespace Sys2Proof.Safety

@[simp] theorem waitSum_append (xs ys : List Event) : waitSum (xs ++ ys) = waitSum xs + waitSum ys := by
  induction xs with
  | nil => simp [waitSum]
  | cons e xs ih => cases e <;> simp [waitSum, ih, Nat.add_assoc]

@[simp] theorem xferCount_append (xs ys : List Event) : xferCount (xs ++ ys) = xferCount xs + xferCount ys := by
  induction xs with
  | nil => simp [xferCount]
  | cons e xs ih => cases e <;> simp [xferCount, ih, Nat.add_comm, Nat.add_left_comm]

/-- The level after two traces in a row is the second's, from the first's. -/
theorem busLevel_append (l : ChipSelect) (xs ys : List Event) :
    busLevel l (xs ++ ys) = (busLevel l xs).bind (fun l' => busLevel l' ys) := by
  induction xs generalizing l with
  | nil => rfl
  | cons e xs ih => cases e <;> cases l <;> simp [busLevel, ih]

@[simp] theorem waitSum_readEvents (c : Config) (a : Addr) (x v : Byte) :
    waitSum (readEvents c a x v) = c.tRdSettle + c.tRdHold + c.tRdGap := by
  simp [readEvents, readFrameEvents, waitSum, Nat.add_assoc]

@[simp] theorem xferCount_readEvents (c : Config) (a : Addr) (x v : Byte) : xferCount (readEvents c a x v) = 2 := rfl

@[simp] theorem waitSum_writeEvents (c : Config) (a : Addr) (d x y : Byte) :
    waitSum (writeEvents c a d x y) = c.tWrHold + c.tWrGap := rfl

@[simp] theorem xferCount_writeEvents (c : Config) (a : Addr) (d x y : Byte) :
    xferCount (writeEvents c a d x y) = 2 := rfl

/-- The waits and the exchanges of UPLOAD's loop. -/
theorem totals_imageEvents (c : Config) (n : Nat) (byte ans : Nat → Byte) :
    waitSum ((List.range n).flatMap (fun i =>
        [.img i (byte i), .xfer (byte i) (ans (i + 1)), .wait c.tLoadByte])) = n * c.tLoadByte ∧
    xferCount ((List.range n).flatMap (fun i =>
        [.img i (byte i), .xfer (byte i) (ans (i + 1)), .wait c.tLoadByte])) = n := by
  induction n with
  | zero => simp [waitSum, xferCount]
  | succ n ih => simp [List.range_succ, ih, waitSum, xferCount, Nat.add_mul]

@[simp] theorem waitSum_sromFrameEvents (c : Config) (n : Nat) (byte ans : Nat → Byte) :
    waitSum (sromFrameEvents c n byte ans) = c.tLoadCmd + n * c.tLoadByte := by
  simp [sromFrameEvents, waitSum, totals_imageEvents]

@[simp] theorem xferCount_sromFrameEvents (c : Config) (n : Nat) (byte ans : Nat → Byte) :
    xferCount (sromFrameEvents c n byte ans) = n + 1 := by
  simp [sromFrameEvents, xferCount, totals_imageEvents]

theorem shape_readEvents (c : Config) (a : Addr) (x v : Byte) :
    (readEvents c a x v).map shapeOf = readEvents c a 0 0 := by
  simp [readEvents, readFrameEvents, shapeOf]

theorem shape_writeEvents (c : Config) (a : Addr) (d x y : Byte) :
    (writeEvents c a d x y).map shapeOf = writeEvents c a d 0 0 := by
  simp [writeEvents, writeFrameEvents, shapeOf]

end Sys2Proof.Safety
end

