-- ==== Sys2Proof/Tests/Slice0.lean ====
section
/-! SUPPORT. The model's own tests. Expected values come from spec/: the words of 30_encoding.md and 95_test_vectors.md V7,
the traces and results of 95_test_vectors.md S1 to S7, V1 to V8, P1 to P5, each named at its test. -/

namespace Sys2Proof.Tests

open Sys2Proof.Machine Sys2Proof.Safety

/-! The shorthand of 00_scope.md R15. The bytes received during a `Send` are ignored; here they are 0. -/

def S : Event := .sel
def D : Event := .desel
def T (b : Byte) : Event := .xfer b 0
def R (b : Byte) : Event := .xfer 0 b
def W (n : Nat) : Event := .wait n

/-- An idle block in TC0 with the given flag, device answers and clock readings. -/
def start (burst : Bool) (dev : List Byte) (clk : List Nat) : State :=
  { State.reset with burst := burst, dev := dev, clk := clk, resRate := 0 }

/-- The state after an instruction, run alone. -/
def after (i : Instr) (s : State) : Option State :=
  match exec i s with
  | .next t => some t
  | .fault _ => none
  | .refused _ => none

/-- The state after one step. -/
def stepped (s : State) : Option State :=
  match step s with
  | .next t => some t
  | .fault _ => none
  | .refused _ => none

/-- What an instruction adds to an empty trace. -/
def traceOf (i : Instr) (s : State) : Option (List Event) := (after i s).map State.trace

/-- Why a step is refused, if it is. -/
def refusal (s : State) : Option Refusal :=
  match step s with
  | .next _ => none
  | .fault _ => none
  | .refused r => some r

/-- The reason a command word decodes to nothing. -/
def rejected (w : Word) : Option Reject :=
  match decode .tc0 (.command w) with
  | .ok _ => none
  | .error r => some r

/-- What a request decodes to. -/
def decoded (r : Request) : Option Instr := (decode .tc0 r).toOption

/-! ### Well-formedness: the one check -/

def noInstr : Config := { Config.tc0 with hasInstr := false }

/-- 30_encoding.md R87. -/
theorem test_wf_refuses_scanrate_without_instrumentation : Instr.wf noInstr .scanrate = false := by decide

theorem test_wf_accepts_scanrate : Instr.wf .tc0 .scanrate = true := by decide

/-- 00_scope.md R11: TC0 meets the constraints. -/
theorem test_tc0_ok : Config.tc0.ok = true := by decide

/-- 00_scope.md R11 (c): the motion-burst register is not the CPI register. -/
theorem test_ok_refuses_a_shared_address : { Config.tc0 with regCpi := 0x50 }.ok = false := by decide

/-! ### Decoding: words written out bit by bit (30_encoding.md R84, 95_test_vectors.md V7) -/

theorem test_decode_rdreg : decoded (.command 0b00010000000000000111111100000000) = some (.rdreg 0x7F) := by decide

theorem test_decode_wrreg :
    decoded (.command 0b00100000000000000000111101110111) = some (.wrreg 0x0F 0x77) := by decide

theorem test_decode_getcpi : decoded (.command 0b00110000000000000000000000000000) = some .getcpi := by decide

theorem test_decode_setcpi : decoded (.command 0b01000000000000000000000001111000) = some (.setcpi 0x78) := by decide

theorem test_decode_init : decoded (.command 0b01010000000000000000000000000000) = some .init := by decide

theorem test_decode_upload :
    decoded (.command 0b01100000000000001111111111111111) = some (.upload 65535) := by decide

theorem test_decode_rdmot : decoded (.command 0b01110000000000000000000000000000) = some .rdmot := by decide

theorem test_decode_rdburst : decoded (.command 0b10000000000000000000000000000000) = some .rdburst := by decide

theorem test_decode_scanrate : decoded (.command 0b10010000000000000000000000000000) = some .scanrate := by decide

/-- The wire-byte table of 95_test_vectors.md: READ of `REG_SROM_ID`. -/
theorem test_decode_wireRead : decoded (.frame8 0b00101010 .oneReceive) = some (.wireRead 0x2A) := by decide

/-- WRITE of 0x5A to `REG_POWER_RESET`. -/
theorem test_decode_wireWrite : decoded (.frame16 0b1011101001011010) = some (.wireWrite 0x3A 0x5A) := by decide

theorem test_decode_wireBurstRead : decoded (.frame8 0b01010000 .sixReceives) = some .wireBurstRead := by decide

theorem test_decode_wireSromLoad :
    decoded (.frame8 0b11100010 (.imageBytes 3)) = some (.wireSromLoad 3) := by decide

/-- The refused words of V7, by the reason. -/
theorem test_decode_refuses_reserved_op :
    [0x00000000, 0xA0000000, 0xF0000000, 0xFFFFFFFF].map rejected = List.replicate 4 (some .reservedOp) := by decide

theorem test_decode_refuses_nonzero_bits :
    [0x10008200, 0x10000201, 0x2000D000, 0x2000FFFF, 0x30000001, 0x40000100, 0x50000001, 0x10010200, 0x68000003,
      0x70008000, 0x80000001, 0x90000100].map rejected = List.replicate 12 (some .mustBeZero) := by decide

/-- The host's interface reads the table's numbering: a WRITE frame's address byte is in bits 15:8. -/
theorem test_decode_table_words :
    decodeTableWord 32 0x6000FFFF = some (.upload 0xFFFF) ∧ decodeTableWord 16 0x8F77 = some (.wireWrite 0x0F 0x77) ∧
    decodeTableWord 8 0x2A = some (.wireRead 0x2A) ∧ decodeTableWord 8 0x50 = some .wireBurstRead ∧
    decodeTableWord 8 0xE2 = some (.wireSromLoad 0) ∧ decodeTableWord 8 0x80 = none := by decide

/-! ### One instruction on a small state -/

/-- S1, first row: the read leaves burst mode. -/
theorem test_rdreg_leaves_burst_mode :
    (after (.rdreg 0x02) (start true [0, 0x80] [])).map (fun t => (t.trace, t.burst, t.resByte))
      = some ([S, T 0x02, W 160, R 0x80, W 1, D, W 19], false, 0x80) := by decide

/-- S1, the excluded case. -/
theorem test_rdreg_of_motion_burst_keeps_the_flag :
    (after (.rdreg 0x50) (start true [0, 0] [])).map (fun t => (t.trace, t.burst))
      = some ([S, T 0x50, W 160, R 0, W 1, D, W 19], true) := by decide

/-- V2: a write never sets the flag. -/
theorem test_wrreg_never_sets_the_flag :
    (after (.wrreg 0x50 0x00) (start false [0, 0] [])).map (fun t => (t.trace, t.burst))
      = some ([S, T 0xD0, T 0, W 35, D, W 180], false) := by decide

/-- V2: nor clears it. -/
theorem test_wrreg_never_clears_the_flag :
    (after (.wrreg 0x0F 0x77) (start true [0, 0] [])).map (fun t => (t.trace, t.burst))
      = some ([S, T 0x8F, T 0x77, W 35, D, W 180], true) := by decide

/-- V3: no clamp on reads. -/
theorem test_getcpi_is_raw :
    (after .getcpi (start true [0, 0xFF] [])).map (fun t => (t.trace, t.resByte, t.burst))
      = some ([S, T 0x0F, W 160, R 0xFF, W 1, D, W 19], 0xFF, false) := by decide

/-- V3: the comparison is unsigned. -/
theorem test_setcpi_clamps_unsigned :
    traceOf (.setcpi 0x80) (start true [0, 0] []) = some [S, T 0x8F, T 0x77, W 35, D, W 180] := by decide

/-- S2: below the maximum the value passes. -/
theorem test_setcpi_passes_small_values :
    traceOf (.setcpi 0x31) (start true [0, 0] []) = some [S, T 0x8F, T 0x31, W 35, D, W 180] := by decide

/-- INIT's answers: five discarded reads, then the two identity bytes. -/
def initAnswers (pid rev : Byte) : List Byte := List.replicate 15 0 ++ [pid, 0, rev]

/-- P1, command 1: the 64 events. -/
theorem test_init_trace :
    (after .init (start true (initAnswers 0x42 0x01) [])).map (fun t => (t.trace, t.resOk, t.burst))
      = some ([S] ++ [S, T 0xBA, T 0x5A, W 35, D, W 180] ++ [W 50000]
          ++ [S, T 0x02, W 160, R 0, W 1, D, W 19] ++ [S, T 0x03, W 160, R 0, W 1, D, W 19]
          ++ [S, T 0x04, W 160, R 0, W 1, D, W 19] ++ [S, T 0x05, W 160, R 0, W 1, D, W 19]
          ++ [S, T 0x06, W 160, R 0, W 1, D, W 19] ++ [S, T 0x90, T 0, W 35, D, W 180]
          ++ [S, T 0x00, W 160, R 0x42, W 1, D, W 19] ++ [S, T 0x01, W 160, R 0x01, W 1, D, W 19] ++ [D],
        true, false) := by decide

/-- S3: the swapped pair does not match. -/
theorem test_init_swapped_identity :
    (after .init (start true (initAnswers 0x01 0x42) [])).map (fun t => (t.resOk, t.burst)) = some (false, false) := by
  decide

/-- P1, command 2: UPLOAD of the two bytes 11 22, whose SROM ID reads as 04. -/
theorem test_upload_trace :
    (after (.upload 2) { start true (List.replicate 10 0 ++ [0x04, 0, 0]) [] with image := [(0, 0x11), (1, 0x22)] }).map
        (fun t => (t.trace, t.sromId, t.burst))
      = some ([S, T 0x90, T 0, W 35, D, W 180] ++ [S, T 0x93, T 0x1D, W 35, D, W 180] ++ [W 10]
          ++ [S, T 0x93, T 0x18, W 35, D, W 180] ++ [S, T 0xE2, W 15]
          ++ [.img 0 0x11, T 0x11, W 15] ++ [.img 1 0x22, T 0x22, W 15] ++ [D, W 200]
          ++ [S, T 0x2A, W 160, R 0x04, W 1, D, W 19]
          ++ [S, T 0x90, T 0, W 35, D, W 180] ++ [W 10000], 0x04, false) := by decide

/-- S6: no image byte, 38 events, waits of 11265. -/
theorem test_upload_of_nothing :
    (traceOf (.upload 0) (start true [] [])).map (fun es => (es.length, waitSum es)) = some (38, 11265) := by decide

/-- S4, first row: two signed samples from four registers, low byte first. -/
theorem test_rdmot_reads_the_deltas :
    (after .rdmot (start true [0, 0x80, 0, 0x34, 0, 0x12, 0, 0xFE, 0, 0xFF] [100])).map
        (fun t => (t.trace, t.resOk, t.burst, sint16 t.sampleX, sint16 t.sampleY))
      = some ([.now 100] ++ [S, T 0x02, W 160, R 0x80, W 1, D, W 19] ++ [S, T 0x03, W 160, R 0x34, W 1, D, W 19]
          ++ [S, T 0x04, W 160, R 0x12, W 1, D, W 19] ++ [S, T 0x05, W 160, R 0xFE, W 1, D, W 19]
          ++ [S, T 0x06, W 160, R 0xFF, W 1, D, W 19], true, false, 4660, -2) := by decide

/-- S4, third row: bit 3 set, so no new motion; the sample is kept. -/
theorem test_rdmot_without_motion :
    (after .rdmot { start true [0, 0x88] [100] with sampleX := 0x1111, sampleY := 0x2222 }).map
        (fun t => (t.trace, t.resOk, t.burst, t.sampleX, t.sampleY))
      = some ([.now 100, S, T 0x02, W 160, R 0x88, W 1, D, W 19], false, false, 0x1111, 0x2222) := by decide

/-- S5, first row: the entry write, then the six bytes. -/
theorem test_rdburst_enters_burst_mode :
    (after .rdburst (start false [0, 0, 0, 0xA0, 0x07, 0x05, 0x00, 0xFB, 0xFF] [0])).map
        (fun t => (t.trace, t.resOk, t.burst, sint16 t.sampleX, sint16 t.sampleY, t.buf))
      = some ([.now 0, S, T 0xD0, T 0, W 35, D, W 180, S, T 0x50, W 35, R 0xA0, R 0x07, R 0x05, R 0x00, R 0xFB, R 0xFF,
            D, W 1], true, true, 5, -5, ⟨0xA0, 0x07, 0x05, 0x00, 0xFB, 0xFF⟩) := by decide

/-- S5, third row: no entry write, and the status byte is ignored. -/
theorem test_rdburst_in_burst_mode :
    (after .rdburst (start true [0, 0x08, 0xFF, 0x00, 0x80, 0xFF, 0x7F] [0])).map
        (fun t => (t.trace, t.resOk, sint16 t.sampleX, sint16 t.sampleY))
      = some ([.now 0, S, T 0x50, W 35, R 0x08, R 0xFF, R 0x00, R 0x80, R 0xFF, R 0x7F, D, W 1], true, -32768, 32767) := by
  decide

/-- S7: SCANRATE reports the last window, not the running count. -/
theorem test_scanrate_copies_the_snapshot :
    (after .scanrate { start false [] [] with scanCount := 1, scanSnapshot := 3 }).map
        (fun t => (t.trace, t.resRate, t.scanCount)) = some ([], 3, 1) := by decide

/-- 10_state.md R28, log 11: the host reads the copied rate, and without the instrumentation no rate at all. -/
theorem test_host_sees_the_rate_only_with_instrumentation :
    (after .scanrate { start false [] [] with scanSnapshot := 3 }).map (fun t => t.hostView.resRate) = some (some 3) ∧
    { start false [] [] with cfg := noInstr, resRate := 3 }.hostView.resRate = none := by decide

/-- V6: refused without the instrumentation. -/
theorem test_scanrate_refused_without_instrumentation :
    refusal { start false [] [] with cfg := noInstr, drives := [.present (.command 0x90000000)] }
      = some (.reserved .noInstrumentation) := by decide

/-- 20_memory.md R53: the frame alone ends at its `Desel`. -/
theorem test_wireRead_trace :
    (after (.wireRead 0x2A) (start true [0, 4] [])).map (fun t => (t.trace, t.burst))
      = some ([S, T 0x2A, W 160, R 4, W 1, D], true) := by decide

/-- 20_memory.md R54. -/
theorem test_wireWrite_trace :
    traceOf (.wireWrite 0x3A 0x5A) (start true [0, 0] []) = some [S, T 0xBA, T 0x5A, W 35, D] := by decide

/-- 20_memory.md R55, 10_state.md R22: arrival order. -/
theorem test_wireBurstRead_trace :
    (after .wireBurstRead (start true [0, 1, 2, 3, 4, 5, 6] [])).map (fun t => (t.trace, t.buf))
      = some ([S, T 0x50, W 35, R 1, R 2, R 3, R 4, R 5, R 6, D], ⟨1, 2, 3, 4, 5, 6⟩) := by decide

/-- 20_memory.md R56. -/
theorem test_wireSromLoad_trace :
    traceOf (.wireSromLoad 1) { start true [0, 0] [] with image := [(0, 0xAA)] }
      = some [S, T 0xE2, W 15, .img 0 0xAA, T 0xAA, W 15, D] := by decide

/-! ### `Poll()`, the primitives and the samples -/

/-- V6, second row: the window closes. -/
theorem test_poll_closes_the_window :
    ((fun t : State => (t.trace, t.scanCount, t.scanSnapshot, t.scanLast))
        (poll { start false [] [6000] with scanCount := 41, scanSnapshot := 7, scanLast := 5000 }))
      = ([.now 6000, .diag 42], 0, 42, 6000) := by decide

/-- V6, eighth row: the clock has wrapped and the window is still open. -/
theorem test_poll_across_a_clock_wrap :
    ((fun t : State => (t.trace, t.scanCount, t.scanLast))
        (poll { start false [] [0x2E7] with scanCount := 9, scanLast := 0xFFFFFF00 }))
      = ([.now 743], 10, 0xFFFFFF00) := by decide

/-- V6: the counter wraps. -/
theorem test_poll_counter_wraps :
    (poll { start false [] [200] with scanCount := 0xFFFFFFFF, scanLast := 100 }).scanCount = 0 := by decide

/-- V1: a redundant `Sel()` is still recorded. -/
theorem test_sel_is_always_recorded :
    ({ start false [] [] with cs := .asserted }.sel.trace, { start false [] [] with cs := .asserted }.sel.cs)
      = ([S], .asserted) := by decide

/-- V4: the low byte is not sign-extended. -/
theorem test_low_byte_is_not_sign_extended :
    (sint16 (joinBytes 0x00 0x80), sint16 (joinBytes 0x80 0x80), sint16 (joinBytes 0xFF 0xFE))
      = (128, -32640, -2) := by decide

/-! ### Steps: handshake, reset, single primitives -/

/-- The host presents `w` to an idle block. -/
def presenting (g : Grain) (w : Word) : State :=
  { start true [0, 0x80] [] with grain := g, drives := [.present (.command w)] }

/-- 10_state.md R29, R33: acceptance latches the word. -/
theorem test_step_latches_the_word :
    (stepped (presenting .command 0x10000200)).map (fun t => (t.cmdreg, t.resByte, t.busy))
      = some (0x10000200, 0x80, false) := by decide

/-- 10_state.md R33: acceptance sets `SEQ <- RUN(0)`. -/
theorem test_step_starts_at_run_0 :
    (stepped (presenting .primitive 0x10000200)).map (fun t => (t.seq.casesOn (some 1) (fun k _ _ => some k), t.busy, t.trace))
      = some (some 0, true, ([] : List Event)) := by decide

/-- 30_encoding.md R86: P5, command 5. -/
theorem test_step_refuses_a_reserved_word :
    refusal (presenting .command 0xA0000000) = some (.reserved .reservedOp) := by decide

/-- UPLOAD 3 has just sent its second byte: the rest is the wait, the third byte and the end. -/
def midUpload : State :=
  { start true [] [] with
    cs := .asserted
    trace := [S, T 0xE2, W 15, .img 0 0xAA, T 0xAA, W 15, .img 1 0xBB, T 0xBB]
    seq := .run 24 (.plain (.wait 15) :: imageOps .tc0 1 2 ++ [.plain .desel]) []
    drives := [.reset] }

/-- V8: reset in mid-command: the pin goes to DEASSERTED, no event, the state is the reset state. -/
theorem test_reset_abandons_an_upload :
    (stepped midUpload).map (fun t => (t.burst, t.cs, t.busy, t.trace)) = some (false, .deasserted, false, []) := by decide

/-- The same without the reset: the next primitive is the wait. -/
theorem test_primitive_runs_next :
    (stepped { midUpload with drives := [] }).map (fun t => (t.trace.length, t.trace.getLast?, t.busy, t.cs))
      = some (9, some (W 15), true, .asserted) := by decide

/-- V8: the first SCANRATE after reset reports 0. -/
theorem test_scanrate_after_reset : (after .scanrate State.reset).map State.resRate = some 0 := by decide

/-- The host's interface: the very next step runs the placed instruction, from reset. -/
theorem test_fetch_word_runs_next :
    (stepped (State.reset.withFetchWord 32 0x20000F77)).map (fun t => (t.cmdreg, t.trace.length, t.devDrawn))
      = some (0x20000F77, 6, 2) := by decide

/-! ### Witnesses: for each statement with hypotheses, concrete values that meet all of them together -/

theorem witness_EncodingDecodesToItself : Instr.wf .tc0 .scanrate = true ∧ Instr.wf noInstr (.upload 0xFFFF) = true := by
  decide

theorem witness_DecodedRequestIsItsEncoding : decode .tc0 (.frame16 0xD000) = .ok (.wireWrite 0x50 0) := rfl

theorem witness_CommandWordsAreTheTableRows :
    isCommandWord .tc0 0x10007F00 ∧ decode .tc0 (.command 0x10007F00) = .ok (.rdreg 0x7F) :=
  ⟨⟨(0x10000000, 0xFFFF80FF), by decide, by decide⟩, rfl⟩

/-- The two words next to SETCPI's row: the last of it, and the first that is none. -/
theorem witness_ReservedWordIsRefused :
    (presenting .command 0x40000100).seq = .idle ∧ (presenting .command 0x40000100).drive.rst = false ∧
    (presenting .command 0x40000100).drive.request = some (.command 0x40000100) ∧
    ¬ (∃ row ∈ commandRows .tc0, (0x40000100 : Word) &&& row.2 = row.1) ∧
    (∃ row ∈ commandRows .tc0, (0x400000FF : Word) &&& row.2 = row.1) := by decide

theorem witness_ScanrateIsReservedWithoutInstrumentation :
    noInstr.hasInstr = false ∧ (0x90000000 : Word).extractLsb' 28 4 = 0x9 ∧
    { presenting .command 0x90000000 with cfg := noInstr }.seq = .idle ∧
    { presenting .command 0x90000000 with cfg := noInstr }.drive = .present (.command 0x90000000) := by decide

/-- Both sides of the direction bit, at its edge. -/
theorem witness_DirectionBitSeparatesReadFromWrite :
    decoded (.frame8 0x7F .oneReceive) = some (.wireRead 0x7F) ∧ decoded (.frame8 0x80 .oneReceive) = none ∧
    decoded (.frame16 0x7FFF) = none ∧ decoded (.frame16 0x8000) = some (.wireWrite 0 0) := by decide

theorem witness_GetcpiReadsTheCpiRegister : (start true [] []).cfg.ok = true := by decide

theorem witness_InitResetsAndIdentifies : (start false (initAnswers 0x42 0x01) []).cfg.ok = true := by decide

theorem witness_UploadStreamsTheImage : { start true [] [] with image := [(0, 0x11)] }.cfg.ok = true := by decide

/-- The window one millisecond short, and just due. -/
theorem witness_PollCountsAndClosesTheWindow :
    (start false [] [999]).cfg.hasInstr = true ∧
    (start false [] [999]).scanLast < 2 ^ (start false [] [999]).cfg.timerW ∧
    (poll (start false [] [999])).scanCount = 1 ∧ (poll (start false [] [1000])).scanCount = 0 ∧
    { start false [] [] with cfg := noInstr }.cfg.hasInstr = false := by decide

theorem witness_ScanrateCopiesTheSnapshot : (start false [] []).cfg.hasInstr = true := by decide

/-- S7: three polls at 250, 500 and 1000. -/
theorem witness_WindowReportsThePollsItCounted :
    (start false [] [250, 500, 1000]).cfg.hasInstr = true ∧
    (∀ j < 2, windowCloses .tc0 ((start false [] [250, 500, 1000]).clockAt j) 0 = false) ∧
    windowCloses .tc0 ((start false [] [250, 500, 1000]).clockAt 2) 0 = true := by decide

/-- Status 80 is new motion, status 88 is none. -/
theorem witness_RdmotReadsMotion :
    (start true [0, 0x88] []).cfg.ok = true ∧
    (start true [0, 0x88] []).answer 1 &&& Config.tc0.motionMask ≠ Config.tc0.motionExpect ∧
    (start true [0, 0x80] []).answer 1 &&& Config.tc0.motionMask = Config.tc0.motionExpect := by decide

theorem witness_RdburstStreamsMotion : (start true [] []).burst = true ∧ (start false [] []).burst = false := by decide

theorem witness_BurstFlagStateMachine :
    (start true [] []).cfg.ok = true ∧ (∃ t, exec (.rdreg 0x50) (start true [] []) = .next t) ∧
    ∃ t, exec (.wireRead 0x02) (start true [] []) = .next t := ⟨by decide, ⟨_, rfl⟩, _, rfl⟩

theorem witness_DiscreteReadForcesOneReentry :
    (start true [] []).cfg.ok = true ∧ (0x4F : Addr) ≠ (start true [] []).cfg.regMotionBurst ∧
    ∃ t, exec (.rdreg 0x4F) (start true [] []) = .next t := ⟨by decide, by decide, _, rfl⟩

theorem witness_RegisterReadsKeepTheRest :
    (∃ t, exec (.rdreg 0x7F) (start true [0, 7] []) = .next t) ∧ (∃ t, exec .getcpi (start true [0, 7] []) = .next t) ∧
    ∃ t, exec (.wireRead 0x7F) (start true [0, 7] []) = .next t := ⟨⟨_, rfl⟩, ⟨_, rfl⟩, _, rfl⟩

/-- Log 8: on one device answer, RDREG takes the byte and leaves burst mode, the READ frame alone does neither. -/
theorem test_wireRead_keeps_what_rdreg_writes :
    (after (.rdreg 0x02) { start true [0, 7] [] with resByte := 0x55 }).map (fun t => (t.resByte, t.burst))
      = some (7, false) ∧
    (after (.wireRead 0x02) { start true [0, 7] [] with resByte := 0x55 }).map (fun t => (t.resByte, t.burst))
      = some (0x55, true) := by decide

theorem witness_RegisterWritesKeepEveryRegister :
    (∃ t, exec (.wrreg 0x50 0) (start true [] []) = .next t) ∧ (∃ t, exec (.setcpi 7) (start true [] []) = .next t) ∧
    (∃ t, exec (.wireWrite 0x50 0) (start true [] []) = .next t) ∧
    ∃ t, exec (.wireSromLoad 1) (start true [] []) = .next t := ⟨⟨_, rfl⟩, ⟨_, rfl⟩, ⟨_, rfl⟩, _, rfl⟩

theorem witness_InitAndUploadKeepTheRest :
    (∃ t, exec .init (start true [] []) = .next t) ∧ ∃ t, exec (.upload 1) (start true [] []) = .next t :=
  ⟨⟨_, rfl⟩, _, rfl⟩

theorem witness_MotionReadsKeepTheRest :
    (∃ t, exec .rdmot (start true [] []) = .next t) ∧ (∃ t, exec .rdburst (start false [] []) = .next t) ∧
    ∃ t, exec .wireBurstRead (start true [] []) = .next t := ⟨⟨_, rfl⟩, ⟨_, rfl⟩, _, rfl⟩

theorem witness_ScanrateKeepsTheRest : ∃ t, exec .scanrate (start true [] []) = .next t := ⟨_, rfl⟩

theorem witness_EveryInstructionRunsToItsEnd :
    Instr.wf (start true [] []).cfg .scanrate = true ∧ ∃ t, step (presenting .command 0x10000200) = .next t :=
  ⟨by decide, _, rfl⟩

theorem witness_WaitAndExchangeTotals :
    (∃ t, exec .init (start true [] []) = .next t) ∧ (∃ t, exec (.wireSromLoad 0) (start true [] []) = .next t) ∧
    ∃ t, exec .scanrate (start true [] []) = .next t := ⟨⟨_, rfl⟩, ⟨_, rfl⟩, _, rfl⟩

/-- RDMOT with two status bytes that agree on the motion test. -/
theorem witness_TraceShapeIgnoresTheDevice :
    (∃ t, exec .rdmot (start true [0, 0x80] []) = .next t) ∧
    (∃ u, exec .rdmot { start true [0, 0x80] [] with dev := [0, 0xF7], devDrawn := 9 } = .next u) ∧
    motionSeen .tc0 ((start true [0, 0x80] []).answer 1) = motionSeen .tc0 (answerOf [0, 0xF7] 9 1) :=
  ⟨⟨_, rfl⟩, ⟨_, rfl⟩, by decide⟩

/-- The same state with the instrumentation and without it. -/
theorem witness_InstrumentationDoesNotInterfere :
    withoutInstr (start true [0, 0x80] [1000]) = withoutInstr { start true [0, 0x80] [1000] with cfg := noInstr } ∧
    (∃ t, exec .rdmot (start true [0, 0x80] [1000]) = .next t) ∧
    ∃ u, exec .rdmot { start true [0, 0x80] [1000] with cfg := noInstr } = .next u := ⟨rfl, ⟨_, rfl⟩, _, rfl⟩

theorem witness_StepRunsTheDecodedInstruction :
    (presenting .primitive 0x10000200).seq = .idle ∧ (presenting .primitive 0x10000200).drive.rst = false ∧
    (presenting .primitive 0x10000200).drive.request = some (.command 0x10000200) ∧
    decoded (.command 0x10000200) = some (.rdreg 2) ∧ (presenting .primitive 0x10000200).grain = .primitive ∧
    (presenting .command 0x10000200).grain = .command := by decide

/-- A busy block that is presented with a word, and an idle one with nothing. -/
theorem witness_PresentedRequestHasNoEffectWhileBusy :
    { midUpload with drives := [.present (.command 0x70000000)] }.busy = true ∧
    { start true [] [] with drives := [.quiet] }.busy = false ∧ Drive.quiet.rst = false ∧
    (Drive.present (.command 0x70000000)).rst = false ∧ Drive.quiet.request = none ∧ Drive.quiet.image = none := by
  decide

theorem witness_ResetAbandonsWhateverRuns : midUpload.drive.rst = true ∧ midUpload.busy = true := by decide

theorem witness_PrimitiveStepsAgreeWithTheWholeCommand :
    (presenting .command 0x70000000).seq = .idle ∧
    (presenting .command 0x70000000).drives = [.present (.command 0x70000000)] ∧
    decoded (.command 0x70000000) = some .rdmot ∧
    (stepped { presenting .command 0x70000000 with grain := .command }).isSome = true := by decide

theorem witness_RunningCommandEndsInBoundedSteps :
    { midUpload with drives := [.quiet] }.busy = true ∧ ∀ d ∈ [Drive.quiet], d.rst = false := by decide

theorem witness_TraceOnlyGrows :
    { midUpload with drives := [] }.drive.rst = false ∧ ∃ t, step { midUpload with drives := [] } = .next t :=
  ⟨rfl, _, rfl⟩

theorem witness_ConfigurationNeverChanges : ∃ t, step midUpload = .next t := ⟨_, rfl⟩

/-- The last index of the image space, and a byte that the host changes just as it is read. -/
theorem witness_OnlyTheHostChangesTheImage :
    (65535 : Nat) < 65536 ∧
    (stepped { midUpload with
        seq := .run 24 [.plain (.imgRead 1), .plain .desel] []
        image := [(1, 0x22)]
        drives := [{ rst := false, request := none, image := some [0x33, 0x44] }] }).map
      (fun t => (t.image, t.trace.getLast?)) = some ([(0, 0x33), (1, 0x44)], some (.img 1 0x44)) := by decide

theorem witness_OnlyRdburstRaisesTheFlag :
    { presenting .command 0x80000000 with burst := false, clk := [5] }.seq = .idle ∧
    { presenting .command 0x80000000 with burst := false, clk := [5] }.grain = .command ∧
    { presenting .command 0x80000000 with burst := false, clk := [5] }.burst = false ∧
    (stepped { presenting .command 0x80000000 with burst := false, clk := [5] }).map State.burst = some true := by decide

theorem witness_HostSeesTheRateOnlyWithInstrumentation :
    (start false [] []).cfg.hasInstr = true ∧ { start false [] [] with cfg := noInstr }.cfg.hasInstr = false := by decide

/-- A block in the middle of a frame meets the invariant, and its next step is the frame's exchange. -/
theorem witness_StepKeepsTheInvariant :
    Inv { midUpload with drives := [] } ∧ ∃ t, step { midUpload with drives := [] } = .next t :=
  ⟨⟨by decide, by decide, by decide, by decide, by decide, by decide, by decide⟩, _, rfl⟩

end Sys2Proof.Tests
end

section
/-! PROOFS. What no step undoes: the trace only grows, and the configuration, the image and the host's coming drives
stay as the step found them (00_scope.md R7, R14; 20_memory.md R62). -/

namespace Sys2Proof.Machine

/-! ### The relation between a state and one the block reaches from it without a reset -/

/-- `t` keeps the configuration, the image and the coming drives of `s`, and its trace begins with that of `s`. -/
structure Extends (s t : State) : Prop where
  cfg : t.cfg = s.cfg
  image : t.image = s.image
  drives : t.drives = s.drives
  trace : s.trace <+: t.trace

theorem Extends.refl (s : State) : Extends s s := ⟨rfl, rfl, rfl, List.prefix_rfl⟩

theorem Extends.trans {s t u : State} (h : Extends s t) (h' : Extends t u) : Extends s u :=
  ⟨h'.cfg.trans h.cfg, h'.image.trans h.image, h'.drives.trans h.drives, h.trace.trans h'.trace⟩

/-- A write to registers only: neither the configuration, the environment nor the trace moves. -/
theorem Extends.setRegisters {s t u : State} (h : Extends s t) (hcfg : u.cfg = t.cfg := by dsimp only)
    (himage : u.image = t.image := by dsimp only) (hdrives : u.drives = t.drives := by dsimp only)
    (htrace : u.trace = t.trace := by dsimp only) : Extends s u :=
  h.trans ⟨hcfg, himage, hdrives, htrace ▸ List.prefix_rfl⟩

/-- Events at the end of the trace, with any write to registers and any use of the device's answers or the clock. -/
theorem Extends.appendTrace {s t u : State} {es : List Event} (h : Extends s t)
    (hcfg : u.cfg = t.cfg := by rfl) (himage : u.image = t.image := by rfl)
    (hdrives : u.drives = t.drives := by rfl) (htrace : u.trace = t.trace ++ es := by rfl) : Extends s u :=
  h.trans ⟨hcfg, himage, hdrives, htrace ▸ List.prefix_append ..⟩

/-! ### The shared operations, each after a state that already extends `s` -/

section Operations

variable {s t : State} (h : Extends s t)
include h

theorem Extends.sel : Extends s t.sel := h.appendTrace

theorem Extends.desel : Extends s t.desel := h.appendTrace

theorem Extends.waitUs (d : Nat) : Extends s (t.waitUs d) := h.appendTrace

theorem Extends.poll : Extends s (poll t) := by
  obtain ⟨_, _, _, _, _, _, hpoll, -⟩ := poll_cases t
  rw [hpoll]
  exact h.appendTrace

theorem Extends.readFrame (a : Addr) : Extends s (readFrame a t).2 := by
  rw [readFrame_eq]
  exact h.appendTrace

theorem Extends.writeFrame (a : Addr) (d : Byte) : Extends s (writeFrame a d t) := by
  rw [writeFrame_eq]
  exact h.appendTrace

theorem Extends.burstFrame : Extends s (burstFrame t) := by
  rw [burstFrame_eq]
  exact h.appendTrace

theorem Extends.sromFrame (n : Nat) : Extends s (sromFrame n t) := by
  rw [sromFrame_eq]
  exact h.appendTrace

theorem Extends.rdReg (a : Addr) : Extends s (rdReg a t).2 := by
  rw [rdReg_eq]
  exact h.appendTrace

theorem Extends.wrReg (a : Addr) (d : Byte) : Extends s (wrReg a d t) := by
  rw [wrReg_eq]
  exact h.appendTrace

theorem Extends.readDeltas : Extends s (readDeltas t) := by
  unfold Machine.readDeltas
  have xRead := (h.rdReg t.cfg.regDeltaXL).rdReg t.cfg.regDeltaXH
  exact ((xRead.rdReg t.cfg.regDeltaYL).rdReg t.cfg.regDeltaYH).setRegisters

theorem Extends.enterBurst : Extends s (enterBurst t) := by
  unfold Machine.enterBurst
  split
  · exact h
  · exact (h.wrReg t.cfg.regMotionBurst t.cfg.burstEntryValue).setRegisters

theorem Extends.latch (r : Request) : Extends s (t.latch r) :=
  h.setRegisters (by simp) (by simp) (by simp) (by simp)

end Operations

/-! ### Whole commands, single primitives, and the step -/

theorem execInit_extends {s t : State} (h : execInit s = .next t) : Extends s t := by
  obtain rfl := Host.Outcome.next.inj h
  have restarted := ((Extends.refl s).sel.wrReg s.cfg.regPowerReset s.cfg.powerResetMagic).waitUs s.cfg.tReset
  have xRead := ((restarted.rdReg s.cfg.regMotion).rdReg s.cfg.regDeltaXL).rdReg s.cfg.regDeltaXH
  have yRead := (xRead.rdReg s.cfg.regDeltaYL).rdReg s.cfg.regDeltaYH
  have configured := yRead.wrReg s.cfg.regConfig s.cfg.initConfigValue
  have identified := (configured.rdReg s.cfg.regProductId).rdReg s.cfg.regRevisionId
  exact identified.desel.setRegisters

theorem execUpload_extends {n : Half} {s t : State} (h : execUpload n s = .next t) : Extends s t := by
  obtain rfl := Host.Outcome.next.inj h
  have baseline := (Extends.refl s).wrReg s.cfg.regConfig s.cfg.uploadConfigBaseline
  have unlocked := (baseline.wrReg s.cfg.regSromEnable s.cfg.sromUnlock).waitUs s.cfg.tSromEnGap
  have confirmed := unlocked.wrReg s.cfg.regSromEnable s.cfg.sromConfirm
  have loaded := (confirmed.sromFrame n.toNat).waitUs s.cfg.tLoadEnd
  have identified := loaded.rdReg s.cfg.regSromId
  exact (Extends.wrReg identified.setRegisters _ _).waitUs _

theorem execRdmot_extends {s t : State} (h : execRdmot s = .next t) : Extends s t := by
  obtain rfl := Host.Outcome.next.inj h
  have statusRead := (Extends.refl s).poll.rdReg (poll s).cfg.regMotion
  dsimp only
  split
  · exact statusRead.readDeltas
  · exact statusRead.setRegisters

theorem execRdburst_extends {s t : State} (h : execRdburst s = .next t) : Extends s t := by
  obtain rfl := Host.Outcome.next.inj h
  have received := (Extends.refl s).poll.enterBurst.burstFrame
  exact (received.waitUs _).setRegisters

theorem execScanrate_extends {s t : State} (h : execScanrate s = .next t) : Extends s t := by
  unfold execScanrate at h
  split at h
  · obtain rfl := Host.Outcome.next.inj h
    exact (Extends.refl s).setRegisters
  · cases h

/-- A whole command extends the state it starts in. -/
theorem exec_extends (i : Instr) {s t : State} (h : exec i s = .next t) : Extends s t := by
  cases i with
  | rdreg a =>
    obtain rfl := Host.Outcome.next.inj h
    exact ((Extends.refl s).rdReg a).setRegisters
  | wrreg a d =>
    obtain rfl := Host.Outcome.next.inj h
    exact (Extends.refl s).wrReg a d
  | getcpi =>
    obtain rfl := Host.Outcome.next.inj h
    exact ((Extends.refl s).rdReg s.cfg.regCpi).setRegisters
  | setcpi d =>
    obtain rfl := Host.Outcome.next.inj h
    exact (Extends.refl s).wrReg _ _
  | init => exact execInit_extends h
  | upload n => exact execUpload_extends h
  | rdmot => exact execRdmot_extends h
  | rdburst => exact execRdburst_extends h
  | scanrate => exact execScanrate_extends h
  | wireRead a =>
    obtain rfl := Host.Outcome.next.inj h
    exact (Extends.refl s).readFrame a
  | wireWrite a d =>
    obtain rfl := Host.Outcome.next.inj h
    exact (Extends.refl s).writeFrame a d
  | wireBurstRead =>
    obtain rfl := Host.Outcome.next.inj h
    exact (Extends.refl s).burstFrame
  | wireSromLoad n =>
    obtain rfl := Host.Outcome.next.inj h
    exact (Extends.refl s).sromFrame _

theorem doPrim_extends (p : Prim) (s : State) (rx : List Byte) : Extends s (doPrim p s rx).1 := by
  obtain ⟨hcfg, himage, hdrives, es, htrace⟩ := doPrim_keeps p s rx
  exact ⟨hcfg, himage, hdrives, es, htrace.symm⟩

theorem runPrimitive_extends (k : Nat) (rest : List Micro) (rx : List Byte) (s : State) :
    Extends s (runPrimitive k rest rx s) := by
  cases rest with
  | nil =>
    unfold runPrimitive
    exact (Extends.refl s).setRegisters
  | cons m ms =>
    obtain ⟨htrace, -, hcfg, himage, hdrives⟩ :=
      doTransfers_keeps m.post (doPrim m.prim s rx).1 (doPrim m.prim s rx).2 ms
    exact (doPrim_extends m.prim s rx).setRegisters hcfg himage hdrives htrace

/-- Without a reset, a step of either grain extends the state that the host's drive of this step leaves. -/
theorem step_extends {s t : State} (hrst : s.drive.rst = false) (h : step s = .next t) : Extends s.takeDrive t := by
  obtain ⟨hreset, -⟩ | ⟨-, running | waiting | whole | start⟩ := step_cases h
  · simp [hrst] at hreset
  · obtain ⟨k, rest, rx, -, rfl⟩ := running
    exact runPrimitive_extends k rest rx s.takeDrive
  · obtain ⟨-, -, rfl⟩ := waiting
    exact .refl _
  · obtain ⟨r, i, -, -, -, -, hexec⟩ := whole
    exact ((Extends.refl s.takeDrive).latch r).trans (exec_extends i hexec)
  · obtain ⟨r, i, -, -, -, -, rfl⟩ := start
    unfold startCommand
    exact ((Extends.refl s.takeDrive).latch r).setRegisters

/-- Settles O44: without a reset a step extends the state, and taking the host's drive adds no event. -/
theorem traceOnlyGrows : Obligations.TraceOnlyGrows := by
  intro s t hrst h
  obtain ⟨es, hes⟩ := (step_extends hrst h).trace
  exact ⟨es, hes.symm⟩

/-- Settles O45: the reset keeps the configuration, and every other step extends the state. -/
theorem configurationNeverChanges : Obligations.ConfigurationNeverChanges := by
  intro s t h
  cases hrst : s.drive.rst with
  | false => exact (step_extends hrst h).cfg
  | true =>
    obtain ⟨-, rfl⟩ | ⟨hnot, -⟩ := step_cases h
    · simp
    · simp [hrst] at hnot

end Sys2Proof.Machine
end

section
/-! PROOFS. The handshake: what a step does while a command runs, while the block waits and when it is offered a request
(10_state.md R30, R33). -/

namespace Sys2Proof.Machine

/-! ### One step, an equation for each case without a reset -/

theorem step_running {s : State} {k : Nat} {rest : List Micro} {rx : List Byte} (hrst : s.drive.rst = false)
    (hseq : s.seq = .run k rest rx) : step s = .next (runPrimitive k rest rx s.takeDrive) := by
  simp [step, cycle, hrst, hseq]

theorem step_waiting {s : State} (hrst : s.drive.rst = false) (hseq : s.seq = .idle)
    (hreq : s.drive.request = none) : step s = .next s.takeDrive := by
  simp [step, cycle, hrst, hseq, hreq]

theorem step_offered {s : State} {r : Request} (hrst : s.drive.rst = false) (hseq : s.seq = .idle)
    (hreq : s.drive.request = some r) : step s = offer r s.takeDrive := by
  simp [step, cycle, hrst, hseq, hreq]

theorem busy_iff (s : State) : s.busy = true ↔ ∃ k rest rx, s.seq = .run k rest rx := by
  cases h : s.seq <;> simp [State.busy, h]

theorem not_busy_iff (s : State) : s.busy = false ↔ s.seq = .idle := by
  cases h : s.seq <;> simp [State.busy, h]

/-- Settles O38: acceptance at either grain, from the equation of an idle block that is offered a request. -/
theorem stepRunsTheDecodedInstruction : Obligations.StepRunsTheDecodedInstruction := by
  intro s r i hseq hrst hreq hdec
  have hstep := step_offered hrst hseq hreq
  refine ⟨fun hgrain => ?_, fun hgrain => ?_, ?_⟩
  · simp [hstep, offer, hdec, hgrain]
  · simp [hstep, offer, hdec, hgrain, startCommand]
  · rintro w rfl
    rfl

/-- The host's drive of a step counts only in its reset level and its image bytes while a command runs. -/
theorem step_running_ignores_request {s : State} {d : Drive} {ds : List Drive} (hdrives : s.drives = d :: ds)
    (hrst : d.rst = false) (hbusy : s.busy = true) (r : Option Request) :
    step { s with drives := { d with request := r } :: ds } = step s := by
  obtain ⟨k, rest, rx, hseq⟩ := (busy_iff s).mp hbusy
  rw [step_running (s := s) (by simpa [State.drive, hdrives]) hseq,
    step_running (s := { s with drives := { d with request := r } :: ds }) hrst hseq]
  simp [State.takeDrive, State.drive, hdrives]

/-- A quiet drive is used up and leaves nothing else behind. -/
theorem takeDrive_of_image_none {s : State} (himage : s.drive.image = none) :
    s.takeDrive = { s with drives := s.drives.tail } := by
  simp [State.takeDrive, himage]

/-- Settles O39: a running block ignores the request, an idle one with nothing presented only uses up the drive. -/
theorem presentedRequestHasNoEffectWhileBusy : Obligations.PresentedRequestHasNoEffectWhileBusy := by
  intro s d ds hdrives hrst
  have hdrive : s.drive = d := by simp [State.drive, hdrives]
  refine ⟨fun hbusy => ⟨by simp [State.cmdReady, hbusy], step_running_ignores_request hdrives hrst hbusy⟩,
    fun hidle => ⟨by simp [State.cmdReady, hidle], fun hreq himage => ?_⟩⟩
  rw [step_waiting (by rwa [hdrive]) ((not_busy_iff s).mp hidle) (by rwa [hdrive]),
    takeDrive_of_image_none (by rwa [hdrive]), hdrives, List.tail_cons]

end Sys2Proof.Machine
end

section
/-! PROOFS. The registers behind the outputs: `BURST`, which only RDBURST raises (10_state.md R20), and what the host
sees (R22, R28, R35). -/

namespace Sys2Proof.Machine

/-! ### What each shared operation does to `BURST` -/

@[simp] theorem readFrame_burst (a : Addr) (s : State) : (readFrame a s).2.burst = s.burst := by
  rw [readFrame_eq]; rfl

@[simp] theorem writeFrame_burst (a : Addr) (d : Byte) (s : State) : (writeFrame a d s).burst = s.burst := by
  rw [writeFrame_eq]; rfl

@[simp] theorem burstFrame_burst (s : State) : (burstFrame s).burst = s.burst := by
  rw [burstFrame_eq]; rfl

@[simp] theorem sromFrame_burst (n : Nat) (s : State) : (sromFrame n s).burst = s.burst := by
  rw [sromFrame_eq]; rfl

@[simp] theorem rdReg_burst (a : Addr) (s : State) : (rdReg a s).2.burst = burstAfterRead s.cfg a s.burst := by
  rw [rdReg_eq]

@[simp] theorem wrReg_burst (a : Addr) (d : Byte) (s : State) : (wrReg a d s).burst = s.burst := by
  rw [wrReg_eq]; rfl

@[simp] theorem poll_burst (s : State) : (poll s).burst = s.burst := by
  obtain ⟨-, hburst, -⟩ := poll_keeps s
  exact hburst

/-- SCANRATE ends only with the instrumentation, and only copies the snapshot (44_instrumentation.md R173). -/
theorem execScanrate_next {s t : State} (h : execScanrate s = .next t) :
    s.cfg.hasInstr = true ∧ t = { s with resRate := s.scanSnapshot } := by
  unfold execScanrate at h
  split at h
  next hinstr => exact ⟨hinstr, (Host.Outcome.next.inj h).symm⟩
  next => cases h

/-- A whole command other than RDBURST leaves a `BURST` that is false so (10_state.md R20). -/
theorem exec_keeps_burst_false {i : Instr} {s t : State} (hi : i ≠ .rdburst) (h : exec i s = .next t)
    (hs : s.burst = false) : t.burst = false := by
  cases i with
  | rdburst => exact absurd rfl hi
  | scanrate =>
    obtain ⟨-, rfl⟩ := execScanrate_next h
    exact hs
  | rdmot =>
    cases h
    dsimp only
    split
    · simp [readDeltas, hs]
    · simp [hs]
  | rdreg a => cases h; simp [hs]
  | wrreg a d => cases h; simp [hs]
  | getcpi => cases h; simp [hs]
  | setcpi d => cases h; simp [hs]
  | init => cases h; simp [hs]
  | upload n => cases h; simp [hs]
  | wireRead a => cases h; simp [hs]
  | wireWrite a d => cases h; simp [hs]
  | wireBurstRead => cases h; simp [hs]
  | wireSromLoad n => cases h; simp [hs]

/-- Settles O47: of the cases of a whole-command step only an accepted command can raise the flag, and of the commands
only RDBURST. -/
theorem onlyRdburstRaisesTheFlag : Obligations.OnlyRdburstRaisesTheFlag := by
  intro s t hseq hgrain h hs ht
  obtain ⟨-, rfl⟩ | ⟨-, running | waiting | whole | start⟩ := step_cases h
  · simp at ht
  · obtain ⟨k, rest, rx, hrun, -⟩ := running
    simp [hseq] at hrun
  · obtain ⟨-, -, rfl⟩ := waiting
    simp [hs] at ht
  · obtain ⟨r, i, -, hreq, hdec, -, hexec⟩ := whole
    have hi : i = .rdburst := by
      by_contra hne
      simp [exec_keeps_burst_false hne hexec (by simpa using hs)] at ht
    exact ⟨r, hreq, hi ▸ hdec⟩
  · obtain ⟨r, i, -, -, -, hprim, -⟩ := start
    simp [hgrain] at hprim

/-- Settles O50: the rate output is the one output that the instrumentation's registers reach. -/
theorem hostSeesTheRateOnlyWithInstrumentation : Obligations.HostSeesTheRateOnlyWithInstrumentation := by
  refine ⟨fun s hinstr => ⟨rateOutput_present s hinstr, { s with resRate := s.scanSnapshot }, ?_, ?_⟩,
    fun s rate count snapshot last hinstr => ⟨rateOutput_absent s hinstr, ?_⟩, fun s b f => rfl⟩
  · simp [exec, execScanrate, hinstr]
  · simp [State.hostView, State.rateOutput, State.busy, State.cmdReady, hinstr]
  · simp [State.hostView, State.rateOutput, State.busy, State.cmdReady, hinstr]

end Sys2Proof.Machine
end

section
/-! PROOFS. The sequences of primitives against the whole commands: `runMicros` runs a sequence to its end, and for each
instruction it ends where `exec` does (10_state.md R30). -/

namespace Sys2Proof.Machine

/-! ### A running command as one function -/

/-- One micro-step: the state after its transfers, and what they leave of the primitives still to come. -/
def doMicro (m : Micro) (ms : List Micro) (s : State) (rx : List Byte) : State × List Micro :=
  doTransfers m.post (doPrim m.prim s rx).1 (doPrim m.prim s rx).2 ms

theorem doMicro_rest (m : Micro) (ms : List Micro) (s : State) (rx : List Byte) :
    (doMicro m ms s rx).2 = ms ∨ (doMicro m ms s rx).2 = [] :=
  (doTransfers_rest ..).imp_right And.left

theorem doMicro_drives (m : Micro) (ms : List Micro) (s : State) (rx : List Byte) :
    (doMicro m ms s rx).1.drives = s.drives := by
  obtain ⟨-, -, -, -, hpost⟩ := doTransfers_keeps m.post (doPrim m.prim s rx).1 (doPrim m.prim s rx).2 ms
  obtain ⟨-, -, hprim, -⟩ := doPrim_keeps m.prim s rx
  exact hpost.trans hprim

theorem runPrimitive_cons (k : Nat) (m : Micro) (ms : List Micro) (rx : List Byte) (s : State) :
    runPrimitive k (m :: ms) rx s =
      { (doMicro m ms s rx).1 with seq := seqAfter k (doMicro m ms s rx).2 (doPrim m.prim s rx).2 } := rfl

/-- What the micro-steps `ms` make of `s` when they run to their end, `rx` being the bytes received before them.
A failed motion test ends them early. -/
def runMicros (ms : List Micro) (s : State) (rx : List Byte) : State :=
  match ms with
  | [] => s
  | m :: ms =>
    match (doMicro m ms s rx).2 with
    | [] => (doMicro m ms s rx).1
    | _ :: _ => runMicros ms (doMicro m ms s rx).1 (doPrim m.prim s rx).2

@[simp] theorem runMicros_nil (s : State) (rx : List Byte) : runMicros [] s rx = s := rfl

/-- Micro-steps that end the sequence. -/
theorem runMicros_last {ms : List Micro} {s t : State} {rx rx' : List Byte}
    (h : runMicros (ms ++ []) s rx = runMicros [] t rx') : runMicros ms s rx = t := by
  rwa [List.append_nil] at h

/-- One micro-step, then what its transfers leave of the rest. -/
theorem runMicros_cons (m : Micro) (ms : List Micro) (s : State) (rx : List Byte) :
    runMicros (m :: ms) s rx
      = runMicros (doMicro m ms s rx).2 (doMicro m ms s rx).1 (doPrim m.prim s rx).2 := by
  rw [runMicros]
  split
  next hcut => rw [hcut, runMicros_nil]
  next hgoes =>
    obtain hrest | hcut := doMicro_rest m ms s rx
    · rw [hrest]
    · simp [hcut] at hgoes

@[simp] theorem runMicros_plain (p : Prim) (ms : List Micro) (s : State) (rx : List Byte) :
    runMicros (.plain p :: ms) s rx = runMicros ms (doPrim p s rx).1 (doPrim p s rx).2 :=
  runMicros_cons ..

/-- A micro-step with one register transfer. -/
theorem runMicros_post (p : Prim) (t : Transfer) (ms : List Micro) (s : State) (rx : List Byte) :
    runMicros ({ prim := p, post := [t] } :: ms) s rx =
      runMicros (doTransfer t (doPrim p s rx).1 (doPrim p s rx).2 ms).2
        (doTransfer t (doPrim p s rx).1 (doPrim p s rx).2 ms).1 (doPrim p s rx).2 :=
  runMicros_cons ..

theorem runMicros_storeBuf (k : Nat) (ms : List Micro) (s : State) (rx : List Byte) :
    runMicros ({ prim := .recv, post := [.storeBuf k] } :: ms) s rx
      = runMicros ms (s.recvBuf k) (s.recv.1 :: rx) :=
  runMicros_cons ..

/-! ### The configuration through the shared operations -/

@[simp] theorem rdReg_cfg (a : Addr) (s : State) : (rdReg a s).2.cfg = s.cfg := ((Extends.refl s).rdReg a).cfg

@[simp] theorem wrReg_cfg (a : Addr) (d : Byte) (s : State) : (wrReg a d s).cfg = s.cfg :=
  ((Extends.refl s).wrReg a d).cfg

@[simp] theorem sromFrame_cfg (n : Nat) (s : State) : (sromFrame n s).cfg = s.cfg := ((Extends.refl s).sromFrame n).cfg

@[simp] theorem poll_cfg (s : State) : (poll s).cfg = s.cfg := (Extends.refl s).poll.cfg

@[simp] theorem enterBurst_cfg (s : State) : (enterBurst s).cfg = s.cfg := (Extends.refl s).enterBurst.cfg

@[simp] theorem burstFrame_cfg (s : State) : (burstFrame s).cfg = s.cfg := (Extends.refl s).burstFrame.cfg

/-! ### The pieces of a sequence, each against the operation of the whole command -/

section Pieces

variable {c : Config} {s : State} (hc : s.cfg = c) (rest : List Micro) (rx : List Byte)
include hc

theorem runMicros_readFrameOps (a : Addr) :
    runMicros (readFrameOps c a ++ rest) s rx = runMicros rest (readFrame a s).2 ((readFrame a s).1 :: rx) := by
  subst hc
  simp [readFrameOps, doPrim, readFrame]

theorem runMicros_writeFrameOps (a : Addr) (d : Byte) :
    runMicros (writeFrameOps c a d ++ rest) s rx = runMicros rest (writeFrame a d s) rx := by
  subst hc
  simp [writeFrameOps, doPrim, writeFrame]

theorem runMicros_rdRegOps (a : Addr) (post : List Transfer) :
    runMicros (rdRegOps c a post ++ rest) s rx =
      runMicros (doTransfers post (rdReg a s).2 ((rdReg a s).1 :: rx) rest).2
        (doTransfers post (rdReg a s).2 ((rdReg a s).1 :: rx) rest).1 ((rdReg a s).1 :: rx) := by
  have hcfg : (readFrame a s).2.cfg = c := ((Extends.refl s).readFrame a).cfg.trans hc
  rw [rdRegOps, List.append_assoc, runMicros_readFrameOps hc, List.singleton_append, runMicros_cons, ← hcfg]
  rfl

theorem runMicros_wrRegOps (a : Addr) (d : Byte) (post : List Transfer) :
    runMicros (wrRegOps c a d post ++ rest) s rx =
      runMicros (doTransfers post (wrReg a d s) rx rest).2 (doTransfers post (wrReg a d s) rx rest).1 rx := by
  have hcfg : (writeFrame a d s).cfg = c := ((Extends.refl s).writeFrame a d).cfg.trans hc
  rw [wrRegOps, List.append_assoc, runMicros_writeFrameOps hc, List.singleton_append, runMicros_cons, ← hcfg]
  rfl

/-- The six bytes stay among those received, where nothing uses them again. -/
theorem runMicros_burstFrameOps :
    ∃ rx', runMicros (burstFrameOps c ++ rest) s rx = runMicros rest (burstFrame s) rx' := by
  subst hc
  simp only [burstFrameOps, List.cons_append, List.nil_append, runMicros_plain, runMicros_storeBuf]
  exact ⟨_, rfl⟩

theorem runMicros_imageOps (n i : Nat) :
    runMicros (imageOps c n i ++ rest) s rx = runMicros rest (sendImageBytes n i s) rx := by
  induction n generalizing i s with
  | zero => rfl
  | succ n ih =>
    simp only [imageOps, List.cons_append, runMicros_plain]
    rw [sendImageBytes, ← ih (s := sendImageByte i s) hc, ← hc]
    rfl

theorem runMicros_sromFrameOps (n : Nat) :
    runMicros (sromFrameOps c n ++ rest) s rx = runMicros rest (sromFrame n s) rx := by
  simp only [sromFrameOps, List.append_assoc, List.cons_append, List.nil_append, runMicros_plain]
  rw [runMicros_imageOps (by simpa [doPrim])]
  subst hc
  simp [doPrim, sromFrame]

theorem runMicros_pollOps : runMicros (pollOps c ++ rest) s rx = runMicros rest (poll s) rx := by
  subst hc
  cases h : s.cfg.hasInstr with
  | false => simp [pollOps, h, poll_absent]
  | true => simp [pollOps, h, doPrim]

theorem runMicros_enterBurstOps {burst : Bool} (hburst : s.burst = burst) :
    runMicros ((if burst then [] else wrRegOps c c.regMotionBurst c.burstEntryValue [.enterBurst]) ++ rest) s rx
      = runMicros rest (enterBurst s) rx := by
  cases burst with
  | true => simp [enterBurst, hburst]
  | false =>
    simp only [Bool.false_eq_true, if_false, runMicros_wrRegOps hc, enterBurst, hburst, hc]
    rfl

end Pieces

/-! ### Whole sequences -/

theorem runMicros_init {s t : State} (h : execInit s = .next t) :
    runMicros (sequenceOf s.cfg s.burst .init) s [] = t := by
  cases h
  simp [sequenceOf, doPrim, runMicros_wrRegOps, runMicros_rdRegOps, runMicros_post, doTransfers, doTransfer, received]

theorem runMicros_upload {n : Half} {s t : State} (h : execUpload n s = .next t) :
    runMicros (sequenceOf s.cfg s.burst (.upload n)) s [] = t := by
  cases h
  simp [sequenceOf, doPrim, runMicros_wrRegOps, runMicros_rdRegOps, runMicros_sromFrameOps, doTransfers, doTransfer,
    received]

theorem runMicros_rdmot {s t : State} (h : execRdmot s = .next t) :
    runMicros (sequenceOf s.cfg s.burst .rdmot) s [] = t := by
  cases h
  simp only [sequenceOf, List.append_assoc, runMicros_pollOps, runMicros_rdRegOps (poll_cfg s), doTransfers,
    doTransfer, rdReg_cfg, poll_cfg, received, List.getD_cons_zero]
  cases hseen : motionSeen s.cfg (rdReg s.cfg.regMotion (poll s)).1 with
  | false => simp
  | true =>
    simp only [if_true, runMicros_rdRegOps, rdReg_cfg, poll_cfg, doTransfers]
    refine (runMicros_last (runMicros_rdRegOps (by simp) [] _ s.cfg.regDeltaYH [.discreteSample])).trans ?_
    simp [doTransfers, doTransfer, readDeltas, received]

theorem runMicros_rdburst {s t : State} (h : execRdburst s = .next t) :
    runMicros (sequenceOf s.cfg s.burst .rdburst) s [] = t := by
  cases h
  have hcfg : (enterBurst (poll s)).cfg = s.cfg := by simp
  obtain ⟨rx, hframe⟩ := runMicros_burstFrameOps hcfg [{ prim := .wait s.cfg.tBurstGap, post := [.burstSample] }] []
  simp [sequenceOf, runMicros_pollOps, runMicros_enterBurstOps, hframe, runMicros_post, doPrim, doTransfer]

/-- An instruction's sequence ends where the whole command ends. -/
theorem runMicros_sequenceOf {i : Instr} {s t : State} (h : exec i s = .next t) :
    runMicros (sequenceOf s.cfg s.burst i) s [] = t := by
  cases i with
  | rdreg a => cases h; exact runMicros_last (runMicros_rdRegOps rfl [] [] a [.resByte])
  | wrreg a d => cases h; exact runMicros_last (runMicros_wrRegOps rfl [] [] a d [])
  | getcpi => cases h; exact runMicros_last (runMicros_rdRegOps rfl [] [] s.cfg.regCpi [.resByte])
  | setcpi d => cases h; exact runMicros_last (runMicros_wrRegOps rfl [] [] s.cfg.regCpi (clampCpi s.cfg d) [])
  | init => exact runMicros_init h
  | upload n => exact runMicros_upload h
  | rdmot => exact runMicros_rdmot h
  | rdburst => exact runMicros_rdburst h
  | scanrate =>
    obtain ⟨-, rfl⟩ := execScanrate_next h
    rfl
  | wireRead a => cases h; exact runMicros_last (runMicros_readFrameOps rfl [] [] a)
  | wireWrite a d => cases h; exact runMicros_last (runMicros_writeFrameOps rfl [] [] a d)
  | wireBurstRead =>
    obtain ⟨rx, hframe⟩ := runMicros_burstFrameOps (s := s) rfl [] []
    cases h
    exact runMicros_last hframe
  | wireSromLoad n => cases h; exact runMicros_last (runMicros_sromFrameOps rfl [] [] n.toNat)

end Sys2Proof.Machine
end

section
/-! PROOFS. The agreement of the two grains (10_state.md R30): at primitive grain a command goes through busy states to
what `runMicros` says, which is where the whole command ends. -/

namespace Sys2Proof.Machine

/-! ### The grain and `SEQ` beside the rest of the state -/

/-- `s` at grain `g` with the sequencer at `q`. -/
def State.withSequencer (s : State) (g : Grain) (q : Seq) : State := { s with grain := g, seq := q }

theorem poll_withSequencer (s : State) (g : Grain) (q : Seq) :
    poll (s.withSequencer g q) = (poll s).withSequencer g q := by
  cases hinstr : s.cfg.hasInstr with
  | false => rw [poll_absent s hinstr, poll_absent (s.withSequencer g q) hinstr]
  | true =>
    cases hclose : windowCloses s.cfg (s.clockAt 0) s.scanLast with
    | false => rw [poll_within s hinstr hclose, poll_within (s.withSequencer g q) hinstr hclose]; rfl
    | true => rw [poll_closing s hinstr hclose, poll_closing (s.withSequencer g q) hinstr hclose]; rfl

theorem doPrim_withSequencer (p : Prim) (s : State) (rx : List Byte) (g : Grain) (q : Seq) :
    doPrim p (s.withSequencer g q) rx = ((doPrim p s rx).1.withSequencer g q, (doPrim p s rx).2) := by
  cases p
  case poll => simp [doPrim, poll_withSequencer]
  all_goals rfl

theorem doTransfer_withSequencer (t : Transfer) (s : State) (rx : List Byte) (rest : List Micro) (g : Grain) (q : Seq) :
    doTransfer t (s.withSequencer g q) rx rest
      = ((doTransfer t s rx rest).1.withSequencer g q, (doTransfer t s rx rest).2) := by
  cases t
  case motionTest => cases hseen : motionSeen s.cfg (received rx 0) <;> simp [doTransfer, State.withSequencer, hseen]
  all_goals rfl

theorem doTransfers_withSequencer (ts : List Transfer) (s : State) (rx : List Byte) (rest : List Micro)
    (g : Grain) (q : Seq) :
    doTransfers ts (s.withSequencer g q) rx rest
      = ((doTransfers ts s rx rest).1.withSequencer g q, (doTransfers ts s rx rest).2) := by
  induction ts generalizing s rest with
  | nil => rfl
  | cons t ts ih => simp only [doTransfers, doTransfer_withSequencer, ih]

theorem doMicro_withSequencer (m : Micro) (ms : List Micro) (s : State) (rx : List Byte) (g : Grain) (q : Seq) :
    doMicro m ms (s.withSequencer g q) rx
      = ((doMicro m ms s rx).1.withSequencer g q, (doMicro m ms s rx).2) := by
  simp only [doMicro, doPrim_withSequencer, doTransfers_withSequencer]

theorem runMicros_withSequencer (ms : List Micro) (s : State) (rx : List Byte) (g : Grain) (q : Seq) :
    runMicros ms (s.withSequencer g q) rx = (runMicros ms s rx).withSequencer g q := by
  induction ms generalizing s rx with
  | nil => rfl
  | cons m ms ih =>
    rw [runMicros_cons, runMicros_cons, doMicro_withSequencer, doPrim_withSequencer]
    obtain hrest | hcut := doMicro_rest m ms s rx
    · rw [hrest, ih]
    · rw [hcut, runMicros_nil, runMicros_nil]

theorem runPrimitive_cons_withSequencer (k : Nat) (m : Micro) (ms : List Micro) (rx : List Byte) (s : State)
    (g : Grain) (q : Seq) :
    runPrimitive k (m :: ms) rx (s.withSequencer g q) =
      (doMicro m ms s rx).1.withSequencer g (seqAfter k (doMicro m ms s rx).2 (doPrim m.prim s rx).2) := by
  rw [runPrimitive_cons, doMicro_withSequencer, doPrim_withSequencer]
  rfl

/-! ### Runs through busy states -/

/-- The block runs from `s` to `t` in some number of steps, and is busy before each of them. -/
def RunsBusy (s t : State) : Prop :=
  ∃ n, core.run n s = .next t ∧ ∀ j < n, ∃ u : State, core.run j s = .next u ∧ u.busy = true

theorem run_succ_of_step {s t : State} (h : step s = .next t) (n : Nat) : core.run (n + 1) s = core.run n t := by
  have hcore : core.step s = .next t := h
  simp only [Host.Core.run, hcore]

theorem RunsBusy.refl (s : State) : RunsBusy s s := ⟨0, rfl, fun _ h => absurd h (Nat.not_lt_zero _)⟩

theorem RunsBusy.head {s t u : State} (hbusy : s.busy = true) (hstep : step s = .next t) (h : RunsBusy t u) :
    RunsBusy s u := by
  obtain ⟨n, hrun, hbefore⟩ := h
  refine ⟨n + 1, (run_succ_of_step hstep n).trans hrun, fun j hj => ?_⟩
  cases j with
  | zero => exact ⟨s, rfl, hbusy⟩
  | succ j => rw [run_succ_of_step hstep]; exact hbefore j (by omega)

/-- With no drive left the host drives nothing. -/
theorem quiet_of_drives_nil {s : State} (h : s.drives = []) : s.drive = .quiet ∧ s.takeDrive = s := by
  have hdrive : s.drive = .quiet := by simp [State.drive, h]
  refine ⟨hdrive, ?_⟩
  rw [takeDrive_of_image_none (by rw [hdrive]; rfl), h, List.tail_nil, ← h]

theorem step_withSequencer {s : State} (hdrives : s.drives = []) (k : Nat) (ms : List Micro) (rx : List Byte) :
    step (s.withSequencer .primitive (.run k ms rx))
      = .next (runPrimitive k ms rx (s.withSequencer .primitive (.run k ms rx))) := by
  obtain ⟨hquiet, htake⟩ := quiet_of_drives_nil (s := s.withSequencer .primitive (.run k ms rx)) hdrives
  rw [step_running (by rw [hquiet]; rfl) rfl, htake]

/-- Primitive by primitive, a running command ends in what `runMicros` says, and is busy until then. -/
theorem runsBusy_runMicros (ms : List Micro) {s : State} (hdrives : s.drives = []) (k : Nat) (rx : List Byte) :
    RunsBusy (s.withSequencer .primitive (.run k ms rx)) ((runMicros ms s rx).withSequencer .primitive .idle) := by
  induction ms generalizing s k rx with
  | nil => exact .head rfl (step_withSequencer hdrives k [] rx) (.refl _)
  | cons m ms ih =>
    refine .head rfl (step_withSequencer hdrives k (m :: ms) rx) ?_
    rw [runPrimitive_cons_withSequencer, runMicros_cons]
    obtain hrest | hcut := doMicro_rest m ms s rx
    · rw [hrest]
      cases ms with
      | nil => exact .refl _
      | cons m' ms => exact ih ((doMicro_drives ..).trans hdrives) (k + 1) _
    · rw [hcut]
      exact .refl _

/-- A whole command leaves `SEQ` alone. -/
theorem exec_keeps_seq {i : Instr} {s t : State} (h : exec i s = .next t) : t.seq = s.seq := by
  have hrun : runMicros (sequenceOf s.cfg s.burst i) s []
      = (runMicros (sequenceOf s.cfg s.burst i) s []).withSequencer s.grain s.seq :=
    runMicros_withSequencer _ s [] s.grain s.seq
  rw [runMicros_sequenceOf h] at hrun
  calc t.seq = (t.withSequencer s.grain s.seq).seq := congrArg State.seq hrun
    _ = s.seq := rfl

/-- A command started at primitive grain in `s` ends where the whole command run in `s` ends. -/
theorem runsBusy_of_exec {i : Instr} {s t : State} (hidle : s.seq = .idle) (hdrives : s.drives = [])
    (h : exec i s = .next t) :
    RunsBusy (s.withSequencer .primitive (.run 0 (sequenceOf s.cfg s.burst i) [])) { t with grain := .primitive } := by
  have hrun := runsBusy_runMicros (sequenceOf s.cfg s.burst i) hdrives 0 []
  rwa [runMicros_sequenceOf h, State.withSequencer, ← hidle, ← exec_keeps_seq h] at hrun

/-! ### The first step, at both grains -/

/-- The state in which a step at whole-command grain runs the request it accepts. -/
def State.accepted (s : State) (r : Request) : State := { s with grain := .command }.takeDrive.latch r

@[simp] theorem accepted_fields (s : State) (r : Request) :
    (s.accepted r).seq = s.seq ∧ (s.accepted r).drives = s.drives.tail ∧ (s.accepted r).cfg = s.cfg ∧
    (s.accepted r).burst = s.burst := by
  simp [State.accepted]

section FirstStep

variable {s : State} {r : Request} {i : Instr} (hidle : s.seq = .idle) (hrst : s.drive.rst = false)
  (hreq : s.drive.request = some r) (hdec : decode s.cfg r = .ok i)
include hidle hrst hreq hdec

theorem step_command_accepted : step { s with grain := .command } = exec i (s.accepted r) := by
  obtain ⟨hexec, -, -⟩ := stepRunsTheDecodedInstruction { s with grain := .command } r i hidle hrst hreq hdec
  exact hexec rfl

theorem step_primitive_accepted :
    step { s with grain := .primitive } = .next ((s.accepted r).withSequencer .primitive
      (.run 0 (sequenceOf (s.accepted r).cfg (s.accepted r).burst i) [])) := by
  obtain ⟨-, hstart, -⟩ := stepRunsTheDecodedInstruction { s with grain := .primitive } r i hidle hrst hreq hdec
  rw [hstart rfl]
  cases r <;> rfl

end FirstStep

/-- Settles O42: the first step at primitive grain starts the command that the whole step runs, in the state in which
the whole step runs it. -/
theorem primitiveStepsAgreeWithTheWholeCommand : Obligations.PrimitiveStepsAgreeWithTheWholeCommand := by
  intro s t r i hidle hdrives hdec hwhole
  have hdrive : s.drive = .present r := by simp [State.drive, hdrives]
  have hrst : s.drive.rst = false := by rw [hdrive]; rfl
  have hreq : s.drive.request = some r := by rw [hdrive]; rfl
  have hexec : exec i (s.accepted r) = .next t := (step_command_accepted hidle hrst hreq hdec).symm.trans hwhole
  have hstart := step_primitive_accepted hidle hrst hreq hdec
  obtain ⟨n, hrun, hbusy⟩ := runsBusy_of_exec (by simpa using hidle) (by simp [hdrives]) hexec
  refine ⟨n + 1, (run_succ_of_step hstart n).trans hrun, fun j hpos hj => ?_⟩
  obtain ⟨j, rfl⟩ := Nat.exists_eq_add_one.mpr hpos
  rw [run_succ_of_step hstart]
  exact hbusy j (by omega)

end Sys2Proof.Machine
end

section
/-! PROOFS. The four frames run alone (20_memory.md R53 to R56): each is the one equation of its shared operation.
A namespace of their own keeps the theorems' names apart from the event sequences `Safety.readFrameEvents` and
`Safety.writeFrameEvents`. -/

namespace Sys2Proof.Machine.Frames

/-- Settles O11: the instruction is the frame, its byte dropped. -/
theorem readFrameEvents : Obligations.ReadFrameEvents := by
  intro a s
  rw [exec, execWireRead, readFrame_eq]

/-- Settles O12: the instruction is the frame. -/
theorem writeFrameEvents : Obligations.WriteFrameEvents := by
  intro a d s
  rw [exec, execWireWrite, writeFrame_eq]

/-- Settles O13: the instruction is the frame, whose six receives fill `BUF`. -/
theorem burstReadFrameEvents : Obligations.BurstReadFrameEvents := by
  intro s
  rw [exec, execWireBurstRead, burstFrame_eq]

/-- Settles O14: the instruction is the frame of the loop over `n` image bytes. -/
theorem sromLoadFrameEvents : Obligations.SromLoadFrameEvents := by
  intro n s
  rw [exec, execWireSromLoad, sromFrame_eq]

end Sys2Proof.Machine.Frames
end

section
/-! PROOFS. The image port (20_memory.md R62, R71): only the host's drive changes it, and a read sees it as it is. -/

namespace Sys2Proof.Machine

theorem takeDrive_image_of_some {s : State} {bs : List Byte} (himage : s.drive.image = some bs) :
    s.takeDrive.image = Memory.ofBytes bs := by
  simp [State.takeDrive, himage]

theorem takeDrive_image_of_none {s : State} (himage : s.drive.image = none) : s.takeDrive.image = s.image := by
  rw [takeDrive_of_image_none himage]

/-- A step leaves on the port what the host's drive of that step left there, with a reset or without one. -/
theorem step_image {s t : State} (h : step s = .next t) : t.image = s.takeDrive.image := by
  cases hrst : s.drive.rst with
  | false => exact (step_extends hrst h).image
  | true =>
    obtain ⟨-, rfl⟩ | ⟨hnot, -⟩ := step_cases h
    · simp
    · simp [hrst] at hnot

/-- Inside the image space the bytes presented read back at their indices. -/
theorem Memory.lookup_ofBytes (bs : List Byte) {i : Nat} (hi : i < imageSpace) :
    (Memory.ofBytes bs).lookup i = bs[i]? := by
  have h := Memory.lookup_ofBytesFrom bs 0 i (by omega)
  rwa [Nat.zero_add] at h

theorem imageByte_of_lookup {s : State} {i : Nat} {b : Byte} (h : s.image.lookup i = some b) (k : Nat) :
    s.imageByte i k = b := by
  simp [State.imageByte, imageAnswer, h]

theorem runPrimitive_imgRead_trace (k i : Nat) (ms : List Micro) (rx : List Byte) (s : State) :
    (runPrimitive k (.plain (.imgRead i) :: ms) rx s).trace = s.trace ++ [.img i (s.imageByte i 0)] := rfl

/-- Settles O46: the port is the one the drive leaves, presented bytes read back, and the read of a step takes its byte
from that port. -/
theorem onlyTheHostChangesTheImage : Obligations.OnlyTheHostChangesTheImage := by
  refine ⟨fun s t h => ?_, fun bs i => Memory.lookup_ofBytes bs, ?_⟩
  · rw [step_image h]
    cases himage : s.drive.image with
    | some bs => exact takeDrive_image_of_some himage
    | none => exact takeDrive_image_of_none himage
  · intro s t k i ms rx bs b hseq hrst himage hi hb h
    have hlookup : s.takeDrive.image.lookup i = some b := by
      rw [takeDrive_image_of_some himage, Memory.lookup_ofBytes bs hi, hb]
    obtain rfl : runPrimitive k (.plain (.imgRead i) :: ms) rx s.takeDrive = t :=
      Host.Outcome.next.inj ((step_running hrst hseq).symm.trans h)
    rw [runPrimitive_imgRead_trace, imageByte_of_lookup hlookup]
    simp

end Sys2Proof.Machine
end

section
/-! PROOFS. The invariant (20_memory.md R50, R52; 10_state.md R24): one micro-step keeps it, so that a single primitive
does, and so does a whole command, which is its sequence of primitives run to the end. -/

namespace Sys2Proof.Machine

open Sys2Proof.Safety

/-! ### The invariant without the sequencer -/

/-- What `Safety.Inv` says of a state whatever its sequencer does. -/
structure Sound (s : State) : Prop where
  framed : busLevel .deasserted s.trace = some s.cs
  count : s.scanCount < 2 ^ s.cfg.countW
  snapshot : s.scanSnapshot < 2 ^ s.cfg.countW
  last : s.scanLast < 2 ^ s.cfg.timerW
  rate : s.resRate < 2 ^ s.cfg.countW
  image : s.image.wf = true

theorem inv_iff (s : State) : Inv s ↔ Sound s ∧ seqOk s = true :=
  ⟨fun ⟨framed, released, count, snapshot, last, rate, image⟩ =>
    ⟨⟨framed, count, snapshot, last, rate, image⟩, released⟩,
   fun ⟨⟨framed, count, snapshot, last, rate, image⟩, released⟩ =>
    ⟨framed, released, count, snapshot, last, rate, image⟩⟩

theorem seqOk_idle {s : State} (h : s.seq = .idle) : seqOk s = true ↔ s.cs = .deasserted := by
  simp [seqOk, h]

theorem seqOk_run {s : State} {k : Nat} {rest : List Micro} {rx : List Byte} (h : s.seq = .run k rest rx) :
    seqOk s = releases s.cs rest := by
  simp [seqOk, h]

theorem nextCount_lt (c : Config) (n : Nat) : nextCount c n < 2 ^ c.countW := Nat.mod_lt _ (Nat.two_pow_pos _)

theorem clockAt_lt (s : State) (k : Nat) : s.clockAt k < 2 ^ s.cfg.timerW := Nat.mod_lt _ (Nat.two_pow_pos _)

/-- Events that lead the pin from its old level to its new one keep the trace framed. -/
theorem framed_append {l l' : ChipSelect} {xs ys : List Event} (hxs : busLevel .deasserted xs = some l)
    (hys : busLevel l ys = some l') : busLevel .deasserted (xs ++ ys) = some l' := by
  rw [busLevel_append, hxs, Option.bind_some, hys]

section Operations

variable {s : State} (h : Sound s)
include h

/-- A primitive that only moves the pin, the trace and the environment's counts: its events must fit the pin's move. -/
theorem Sound.bus {t : State} {es : List Event} (hlevel : busLevel s.cs es = some t.cs)
    (htrace : t.trace = s.trace ++ es := by rfl) (hcount : t.scanCount = s.scanCount := by rfl)
    (hsnapshot : t.scanSnapshot = s.scanSnapshot := by rfl) (hlast : t.scanLast = s.scanLast := by rfl)
    (hrate : t.resRate = s.resRate := by rfl) (hcfg : t.cfg = s.cfg := by rfl)
    (himage : t.image = s.image := by rfl) : Sound t where
  framed := htrace ▸ framed_append h.framed hlevel
  count := hcount ▸ hcfg ▸ h.count
  snapshot := hsnapshot ▸ hcfg ▸ h.snapshot
  last := hlast ▸ hcfg ▸ h.last
  rate := hrate ▸ hcfg ▸ h.rate
  image := himage ▸ h.image

/-- A write to registers of which `Sound` says nothing. -/
theorem Sound.setRegisters {t : State} (htrace : t.trace = s.trace := by rfl) (hcs : t.cs = s.cs := by rfl)
    (hcount : t.scanCount = s.scanCount := by rfl) (hsnapshot : t.scanSnapshot = s.scanSnapshot := by rfl)
    (hlast : t.scanLast = s.scanLast := by rfl) (hrate : t.resRate = s.resRate := by rfl)
    (hcfg : t.cfg = s.cfg := by rfl) (himage : t.image = s.image := by rfl) : Sound t :=
  h.bus (es := []) (congrArg some hcs.symm) (htrace.trans (List.append_nil _).symm) hcount hsnapshot hlast hrate hcfg
    himage

theorem Sound.poll : Sound (poll s) := by
  cases hinstr : s.cfg.hasInstr with
  | false => rwa [poll_absent s hinstr]
  | true =>
    cases hclose : windowCloses s.cfg (s.clockAt 0) s.scanLast with
    | false =>
      rw [poll_within s hinstr hclose]
      exact ⟨framed_append h.framed rfl, nextCount_lt .., h.snapshot, h.last, h.rate, h.image⟩
    | true =>
      rw [poll_closing s hinstr hclose]
      exact ⟨framed_append h.framed rfl, Nat.two_pow_pos _, nextCount_lt .., clockAt_lt .., h.rate, h.image⟩

theorem Sound.doTransfer (t : Transfer) (rx : List Byte) (rest : List Micro) :
    Sound (doTransfer t s rx rest).1 := by
  cases t
  case motionTest =>
    simp only [Machine.doTransfer]
    split
    · exact h
    · exact h.setRegisters
  case resRate => exact ⟨h.framed, h.count, h.snapshot, h.last, h.snapshot, h.image⟩
  all_goals exact h.setRegisters

theorem Sound.doTransfers (ts : List Transfer) (rx : List Byte) (rest : List Micro) :
    Sound (doTransfers ts s rx rest).1 := by
  induction ts generalizing s rest with
  | nil => exact h
  | cons t ts ih => exact ih (h.doTransfer t rx rest) _

/-- The image after the host's drive is the one before it, or made of the bytes presented. -/
theorem Sound.takeDrive : Sound s.takeDrive := by
  obtain ⟨framed, count, snapshot, last, rate, image⟩ := h
  refine ⟨framed, count, snapshot, last, rate, ?_⟩
  cases himage : s.drive.image with
  | some bs => rw [takeDrive_image_of_some himage]; exact Memory.wf_ofBytes bs
  | none => rwa [takeDrive_image_of_none himage]

theorem Sound.latch (r : Request) : Sound (s.latch r) := by
  cases r <;> exact h.setRegisters

theorem Sound.applyReset : Sound s.applyReset where
  framed := rfl
  count := Nat.two_pow_pos _
  snapshot := Nat.two_pow_pos _
  last := Nat.two_pow_pos _
  rate := Nat.mod_lt _ (Nat.two_pow_pos _)
  image := h.image

theorem Sound.setSeq (q : Seq) : Sound { s with seq := q } := h.setRegisters

end Operations

/-! ### One primitive, one micro-step, a sequence -/

/-- A byte can be exchanged only while the pin is asserted. -/
theorem busLevel_xfer {l l' : ChipSelect} {out inn : Byte}
    (h : (if l = .asserted then some l else none) = some l') : busLevel l [.xfer out inn] = some l' := by
  cases l with
  | asserted => exact h
  | deasserted => cases h

theorem doPrim_cs {p : Prim} {s : State} {l : ChipSelect} (hl : levelAfter s.cs p = some l) (rx : List Byte) :
    (doPrim p s rx).1.cs = l := by
  cases p
  case poll =>
    obtain ⟨_, _, _, _, _, _, hpoll, -⟩ := poll_cases s
    simpa [doPrim, hpoll, levelAfter] using hl
  all_goals simp_all [levelAfter, doPrim]

theorem Sound.doPrim {p : Prim} {s : State} {l : ChipSelect} (h : Sound s) (hl : levelAfter s.cs p = some l)
    (rx : List Byte) : Sound (doPrim p s rx).1 := by
  have hcs := doPrim_cs hl rx
  cases p with
  | sel => exact h.bus (es := [.sel]) rfl
  | desel => exact h.bus (es := [.desel]) rfl
  | send b => exact h.bus ((busLevel_xfer hl).trans (congrArg some hcs.symm))
  | recv => exact h.bus ((busLevel_xfer hl).trans (congrArg some hcs.symm))
  | wait d => exact h.bus (es := [.wait d]) rfl
  | imgRead i => exact h.bus (es := [.img i (s.imageByte i 0)]) rfl
  | imgSend => exact h.bus ((busLevel_xfer hl).trans (congrArg some hcs.symm))
  | poll => exact h.poll
  | internal => exact h

/-- A sequence that releases the pin starts with a primitive the pin's level allows; after it the rest releases the
pin, and where a motion test may end the command the pin is already released. -/
theorem releases_cons {l : ChipSelect} {m : Micro} {ms : List Micro} (h : releases l (m :: ms) = true) :
    ∃ l', levelAfter l m.prim = some l' ∧ releases l' ms = true ∧
      (Transfer.motionTest ∈ m.post → l' = .deasserted) := by
  cases hl : levelAfter l m.prim with
  | none => simp [releases, hl] at h
  | some l' =>
    simp only [releases, hl, Bool.and_eq_true, Bool.or_eq_true, Bool.not_eq_true', List.contains_eq_mem,
      decide_eq_false_iff_not, beq_iff_eq] at h
    obtain ⟨htest, hms⟩ := h
    exact ⟨l', rfl, hms, htest.resolve_left ∘ not_not_intro⟩

/-- One micro-step of a sequence that releases the pin: what remains of the sequence, cut short or not, still does. -/
theorem Sound.doMicro {m : Micro} {ms : List Micro} {s : State} (h : Sound s) (hrel : releases s.cs (m :: ms) = true)
    (rx : List Byte) :
    Sound (doMicro m ms s rx).1 ∧ releases (doMicro m ms s rx).1.cs (doMicro m ms s rx).2 = true := by
  obtain ⟨l, hl, hms, htest⟩ := releases_cons hrel
  have hcs : (Machine.doMicro m ms s rx).1.cs = l := by
    obtain ⟨-, hpost, -⟩ := doTransfers_keeps m.post (Machine.doPrim m.prim s rx).1 (Machine.doPrim m.prim s rx).2 ms
    exact hpost.trans (doPrim_cs hl rx)
  refine ⟨(h.doPrim hl rx).doTransfers .., ?_⟩
  rw [hcs]
  obtain hrest | ⟨hcut, hmem⟩ :=
    doTransfers_rest m.post (Machine.doPrim m.prim s rx).1 (Machine.doPrim m.prim s rx).2 ms
  · rwa [Machine.doMicro, hrest]
  · rw [Machine.doMicro, hcut, htest hmem]
    rfl

theorem Sound.runMicros {ms : List Micro} {s : State} (h : Sound s) (hrel : releases s.cs ms = true) (rx : List Byte) :
    Sound (runMicros ms s rx) ∧ (runMicros ms s rx).cs = .deasserted := by
  induction ms generalizing s rx with
  | nil => exact ⟨h, beq_iff_eq.mp hrel⟩
  | cons m ms ih =>
    obtain ⟨hsound, hrest⟩ := h.doMicro hrel rx
    rw [runMicros_cons]
    obtain hgoes | hcut := doMicro_rest m ms s rx
    · rw [hgoes] at hrest ⊢
      exact ih hsound hrest _
    · rw [hcut] at hrest ⊢
      exact ⟨hsound, beq_iff_eq.mp hrest⟩

/-! ### Every instruction's sequence releases the pin -/

section Sequences

variable (c : Config) (l : ChipSelect) (rest : List Micro)

@[simp] theorem releases_readFrameOps (a : Addr) :
    releases l (readFrameOps c a ++ rest) = releases .deasserted rest := by
  simp [readFrameOps, Micro.plain, releases, levelAfter]

@[simp] theorem releases_writeFrameOps (a : Addr) (d : Byte) :
    releases l (writeFrameOps c a d ++ rest) = releases .deasserted rest := by
  simp [writeFrameOps, Micro.plain, releases, levelAfter]

@[simp] theorem releases_burstFrameOps : releases l (burstFrameOps c ++ rest) = releases .deasserted rest := by
  simp [burstFrameOps, Micro.plain, releases, levelAfter]

@[simp] theorem releases_imageOps (n i : Nat) :
    releases .asserted (imageOps c n i ++ rest) = releases .asserted rest := by
  induction n generalizing i with
  | zero => rfl
  | succ n ih => simp [imageOps, Micro.plain, releases, levelAfter, ih]

@[simp] theorem releases_sromFrameOps (n : Nat) :
    releases l (sromFrameOps c n ++ rest) = releases .deasserted rest := by
  simp [sromFrameOps, Micro.plain, releases, levelAfter]

/-- Whatever the caller does with the byte is done with the pin released. -/
@[simp] theorem releases_rdRegOps (a : Addr) (post : List Transfer) :
    releases l (rdRegOps c a post ++ rest) = releases .deasserted rest := by
  simp [rdRegOps, releases, levelAfter]

@[simp] theorem releases_wrRegOps (a : Addr) (d : Byte) (post : List Transfer) :
    releases l (wrRegOps c a d post ++ rest) = releases .deasserted rest := by
  simp [wrRegOps, releases, levelAfter]

@[simp] theorem releases_pollOps : releases l (pollOps c ++ rest) = releases l rest := by
  cases h : c.hasInstr <;> simp [pollOps, h, Micro.plain, releases, levelAfter]

theorem releases_sequenceOf_append (burst : Bool) (i : Instr) :
    releases .deasserted (sequenceOf c burst i ++ rest) = releases .deasserted rest := by
  cases i with
  | rdreg a => exact releases_rdRegOps ..
  | wrreg a d => exact releases_wrRegOps ..
  | getcpi => exact releases_rdRegOps ..
  | setcpi d => exact releases_wrRegOps ..
  | init => simp [sequenceOf, Micro.plain, releases, levelAfter]
  | upload n => simp [sequenceOf, Micro.plain, releases, levelAfter]
  | rdmot => simp [sequenceOf]
  | rdburst => cases burst <;> simp [sequenceOf, releases, levelAfter]
  | scanrate => simp [sequenceOf, releases, levelAfter]
  | wireRead a => exact releases_readFrameOps ..
  | wireWrite a d => exact releases_writeFrameOps ..
  | wireBurstRead => exact releases_burstFrameOps ..
  | wireSromLoad n => exact releases_sromFrameOps ..

theorem releases_sequenceOf (burst : Bool) (i : Instr) : releases .deasserted (sequenceOf c burst i) = true := by
  have h := releases_sequenceOf_append c [] burst i
  rwa [List.append_nil] at h

end Sequences

/-! ### The step -/

/-- A whole command is its sequence run to the end. -/
theorem Sound.exec {i : Instr} {s t : State} (h : Sound s) (hcs : s.cs = .deasserted) (hexec : exec i s = .next t) :
    Sound t ∧ t.cs = .deasserted := by
  have hrel : releases s.cs (sequenceOf s.cfg s.burst i) = true := hcs ▸ releases_sequenceOf ..
  rw [← runMicros_sequenceOf hexec]
  exact h.runMicros hrel []

theorem seqOk_seqAfter (s : State) (k : Nat) (rest : List Micro) (rx : List Byte) :
    seqOk { s with seq := seqAfter k rest rx } = releases s.cs rest := by
  cases rest <;> rfl

/-- One primitive of a running command; a command with no primitive left only becomes idle. -/
theorem inv_runPrimitive {k : Nat} {rest : List Micro} {rx : List Byte} {s : State} (h : Sound s)
    (hrel : releases s.cs rest = true) : Inv (runPrimitive k rest rx s) := by
  rw [inv_iff]
  cases rest with
  | nil => exact ⟨h.setSeq .idle, hrel⟩
  | cons m ms =>
    obtain ⟨hsound, hrest⟩ := h.doMicro hrel rx
    rw [runPrimitive_cons]
    exact ⟨hsound.setSeq _, by rwa [seqOk_seqAfter]⟩

/-- Settles O48: of the cases of a step, the reset and waiting keep the invariant outright, and the others run micro-steps
of a sequence that releases the pin. -/
theorem stepKeepsTheInvariant : Obligations.StepKeepsTheInvariant := by
  intro s t hinv h
  obtain ⟨hsound, hseqOk⟩ := (inv_iff s).mp hinv
  obtain ⟨-, rfl⟩ | ⟨-, running | waiting | whole | start⟩ := step_cases h
  · exact (inv_iff _).mpr ⟨hsound.takeDrive.applyReset, rfl⟩
  · obtain ⟨k, rest, rx, hseq, rfl⟩ := running
    exact inv_runPrimitive hsound.takeDrive (seqOk_run hseq ▸ hseqOk)
  · obtain ⟨-, -, rfl⟩ := waiting
    exact (inv_iff _).mpr ⟨hsound.takeDrive, hseqOk⟩
  · obtain ⟨r, i, hidle, -, -, -, hexec⟩ := whole
    have hcs : (s.takeDrive.latch r).cs = .deasserted := by simpa using (seqOk_idle hidle).mp hseqOk
    have hseq : t.seq = .idle := (exec_keeps_seq hexec).trans (by simpa using hidle)
    obtain ⟨ht, htcs⟩ := (hsound.takeDrive.latch r).exec hcs hexec
    exact (inv_iff t).mpr ⟨ht, (seqOk_idle hseq).mpr htcs⟩
  · obtain ⟨r, i, hidle, -, -, -, rfl⟩ := start
    have hcs : (s.takeDrive.latch r).cs = .deasserted := by simpa using (seqOk_idle hidle).mp hseqOk
    have hrel : seqOk (startCommand i (s.takeDrive.latch r)) = true := by
      rw [seqOk_run (s := startCommand i (s.takeDrive.latch r)) rfl]
      exact hcs ▸ releases_sequenceOf ..
    exact (inv_iff _).mpr ⟨(hsound.takeDrive.latch r).setSeq _, hrel⟩

end Sys2Proof.Machine
end

section
/-! PROOFS. The encoding (30_encoding.md): decoding and encoding are inverse to each other, and the words the decoder
takes are those of the table's match and mask columns (R84 to R87). -/

namespace Sys2Proof.Encoding

open Sys2Proof.Machine Sys2Proof.Safety

/-! ### An encoding decodes to its instruction -/

/-- Settles O1: one round trip for each constructor. -/
theorem encodingDecodesToItself : Obligations.EncodingDecodesToItself := by
  intro c i hwf
  cases i with
  | rdreg a => exact Laws.RoundTrip.rdreg a c hwf
  | wrreg a d => exact Laws.RoundTrip.wrreg a d c hwf
  | getcpi => exact Laws.RoundTrip.getcpi c hwf
  | setcpi d => exact Laws.RoundTrip.setcpi d c hwf
  | init => exact Laws.RoundTrip.init c hwf
  | upload n => exact Laws.RoundTrip.upload n c hwf
  | rdmot => exact Laws.RoundTrip.rdmot c hwf
  | rdburst => exact Laws.RoundTrip.rdburst c hwf
  | scanrate => exact Laws.RoundTrip.scanrate c hwf
  | wireRead a => exact Laws.RoundTrip.wireRead a c hwf
  | wireWrite a d => exact Laws.RoundTrip.wireWrite a d c hwf
  | wireBurstRead => exact Laws.RoundTrip.wireBurstRead c hwf
  | wireSromLoad n => exact Laws.RoundTrip.wireSromLoad n c hwf

/-- Settles O8: each word is the encoding of the instruction beside it, as it stands. -/
theorem writtenOutWordsDecode : Obligations.WrittenOutWordsDecode :=
  ⟨Laws.RoundTrip.rdreg 0x02 .tc0 rfl, Laws.RoundTrip.wrreg 0x0F 0x77 .tc0 rfl, Laws.RoundTrip.setcpi 0x78 .tc0 rfl,
    Laws.RoundTrip.upload 0xFFFF .tc0 rfl, Laws.RoundTrip.rdmot .tc0 rfl, Laws.RoundTrip.scanrate .tc0 rfl,
    Laws.RoundTrip.wireRead 0x2A .tc0 rfl, Laws.RoundTrip.wireWrite 0x3A 0x5A .tc0 rfl⟩

/-! ### The bytes of a frame (30_encoding.md R80, R81) -/

theorem readByte_of_bit7_clear {b : Byte} (h : ¬ b.getLsbD 7 = true) : readByte (b.extractLsb' 0 7) = b := by
  rw [getLsbD_toNat, decide_eq_true_eq] at h
  apply BitVec.eq_of_toNat_eq
  rw [readByte_toNat, extract_toNat]; omega

theorem writeByte_of_bit7_set {b : Byte} (h : b.getLsbD 7 = true) : writeByte (b.extractLsb' 0 7) = b := by
  rw [getLsbD_toNat, decide_eq_true_eq] at h
  apply BitVec.eq_of_toNat_eq
  rw [writeByte_toNat, extract_toNat]; omega

theorem writeByte_append_of_bit15_set {h : Half} (h15 : h.getLsbD 15 = true) :
    writeByte (h.extractLsb' 8 7) ++ h.extractLsb' 0 8 = h := by
  rw [getLsbD_toNat, decide_eq_true_eq] at h15
  apply BitVec.eq_of_toNat_eq
  rw [toNat_append_eq, writeByte_toNat, extract_toNat, extract_toNat]; omega

theorem readByte_append_bit15 (a : Addr) (d : Byte) : (readByte a ++ d).getLsbD 15 = false := by
  rw [BitVec.getLsbD_append]; exact readByte_bit7 a

/-- Settles O7: a byte is the address byte of a READ frame or that of a WRITE frame, as its bit 7 says. -/
theorem directionBitSeparatesReadFromWrite : Obligations.DirectionBitSeparatesReadFromWrite := by
  intro c b d
  by_cases hb : b.getLsbD 7 = true
  · obtain ⟨a, rfl⟩ : ∃ a, b = writeByte a := ⟨_, (writeByte_of_bit7_set hb).symm⟩
    have hread : decode c (.frame8 (writeByte a) .oneReceive) = .error .readNeedsBit7Clear := if_pos hb
    have hwrite : decode c (.frame16 (writeByte a ++ d)) = .ok (.wireWrite a d) := Laws.RoundTrip.wireWrite a d c rfl
    have hhigh : ¬ 128 + a.toNat < 128 := by omega
    simp [hread, hwrite, writeByte_toNat, hhigh]
  · obtain ⟨a, rfl⟩ : ∃ a, b = readByte a := ⟨_, (readByte_of_bit7_clear hb).symm⟩
    have hread : decode c (.frame8 (readByte a) .oneReceive) = .ok (.wireRead a) := Laws.RoundTrip.wireRead a c rfl
    have hwrite : decode c (.frame16 (readByte a ++ d)) = .error .writeNeedsBit7Set := by
      rw [decode, decodeFrame16, readByte_append_bit15]; rfl
    simp [hread, hwrite, readByte_toNat, a.isLt]

/-! ### The match and mask columns of the command table (30_encoding.md R84) -/

/-- A field of a word has a value exactly when the word agrees with that value under the field's mask. -/
theorem extractLsb'_eq_iff_and_mask {m s n : Nat} (hfit : s + n ≤ m) (w : BitVec m) (v : BitVec n) :
    w.extractLsb' s n = v ↔ w &&& (BitVec.allOnes n).setWidth m <<< s = v.setWidth m <<< s := by
  constructor
  · rintro rfl
    apply BitVec.eq_of_getLsbD_eq
    intro j hj
    by_cases hs : j < s
    · simp [hs]
    · simp [hs, hj, show s + (j - s) = j by omega, Bool.and_comm]
  · intro h
    apply BitVec.eq_of_getLsbD_eq
    intro j hj
    have hbit := congrArg (·.getLsbD (s + j)) h
    simpa [show s + j < m by omega, show j < m by omega, hj] using hbit

section Rows

variable (w : Word)

theorem wrreg_fixed_iff : w.extractLsb' 15 17 = 0x4000#17 ↔ w &&& 0xFFFF8000#32 = 0x20000000#32 :=
  extractLsb'_eq_iff_and_mask (by decide) w _

theorem setcpi_fixed_iff : w.extractLsb' 8 24 = 0x400000#24 ↔ w &&& 0xFFFFFF00#32 = 0x40000000#32 :=
  extractLsb'_eq_iff_and_mask (by decide) w _

theorem upload_fixed_iff : w.extractLsb' 16 16 = 0x6000#16 ↔ w &&& 0xFFFF0000#32 = 0x60000000#32 :=
  extractLsb'_eq_iff_and_mask (by decide) w _

/-- RDREG's mask covers two fields, and each of them is read off under its own mask. -/
theorem rdreg_fixed_iff :
    w.extractLsb' 15 17 = 0x2000#17 ∧ w.extractLsb' 0 8 = 0#8 ↔ w &&& 0xFFFF80FF#32 = 0x10000000#32 := by
  have hhigh : w.extractLsb' 15 17 = 0x2000#17 ↔ w &&& 0xFFFF8000#32 = 0x10000000#32 :=
    extractLsb'_eq_iff_and_mask (by decide) w _
  have hlow : w.extractLsb' 0 8 = 0#8 ↔ w &&& 0xFF#32 = 0#32 := extractLsb'_eq_iff_and_mask (by decide) w _
  rw [hhigh, hlow]
  constructor
  · rintro ⟨h, h'⟩
    have hunion : w &&& (0xFFFF8000#32 ||| 0xFF#32) = 0x10000000#32 ||| 0#32 := by
      rw [BitVec.and_or_distrib_left, h, h']
    exact hunion
  · intro h
    have hpart (p : Word) : w &&& (0xFFFF80FF#32 &&& p) = 0x10000000#32 &&& p := by rw [← BitVec.and_assoc, h]
    exact ⟨hpart 0xFFFF8000#32, hpart 0xFF#32⟩

theorem and_full_mask : w &&& 0xFFFFFFFF#32 = w := BitVec.and_allOnes

end Rows

/-- The rows of the table, each as the decoder tests for it. -/
theorem isCommandWord_iff (c : Config) (w : Word) :
    isCommandWord c w ↔ (w.extractLsb' 15 17 = 0x2000 ∧ w.extractLsb' 0 8 = 0) ∨ w.extractLsb' 15 17 = 0x4000 ∨
      w = 0x30000000 ∨ w.extractLsb' 8 24 = 0x400000 ∨ w = 0x50000000 ∨ w.extractLsb' 16 16 = 0x6000 ∨
      w = 0x70000000 ∨ w = 0x80000000 ∨ w = 0x90000000 ∧ c.hasInstr = true := by
  cases hinstr : c.hasInstr <;>
    simp [isCommandWord, commandRows, hinstr, rdreg_fixed_iff, wrreg_fixed_iff, setcpi_fixed_iff,
      upload_fixed_iff, and_full_mask]

/-- Settles O4: the rows are nine fixed pairs of words, or the first eight of them. -/
theorem commandRowsAreDisjoint : Obligations.CommandRowsAreDisjoint := by
  intro c
  cases hinstr : c.hasInstr <;> rw [commandRows, hinstr] <;> decide

/-! ### Command words: decoded exactly when they match a row (30_encoding.md R84) -/

/-- A bit vector is its bits from `s` on and its bits below. -/
theorem high_append_low {n s : Nat} (w : BitVec (n + s)) : w.extractLsb' s n ++ w.extractLsb' 0 s = w := by
  rw [BitVec.extractLsb'_append_extractLsb'_eq_extractLsb' (Nat.zero_add s).symm, BitVec.extractLsb'_eq_self]

section Operands

variable (c : Config) {w : Word}

/-- The address and data bytes of a word, whose other bits are `v`. -/
theorem append_opA_opD {v : BitVec 17} (hfixed : w.extractLsb' 15 17 = v) : v ++ opA w ++ opD w = w := by
  have hlow : opA w ++ opD w = w.extractLsb' 0 15 := BitVec.extractLsb'_append_extractLsb'_eq_extractLsb' rfl
  rw [BitVec.append_assoc, hlow, ← hfixed, high_append_low (n := 17) (s := 15) w, BitVec.cast_eq]

/-- A word with RDREG's fixed bits is RDREG of its address operand. -/
theorem encode_rdreg_opA (hfixed : w.extractLsb' 15 17 = 0x2000 ∧ w.extractLsb' 0 8 = 0) :
    encode c (.rdreg (opA w)) = .command w := by
  have hword := append_opA_opD hfixed.1
  rw [opD, hfixed.2] at hword
  exact congrArg _ hword

theorem encode_wrreg_opA_opD (hfixed : w.extractLsb' 15 17 = 0x4000) :
    encode c (.wrreg (opA w) (opD w)) = .command w := congrArg _ (append_opA_opD hfixed)

theorem encode_setcpi_opD (hfixed : w.extractLsb' 8 24 = 0x400000) : encode c (.setcpi (opD w)) = .command w := by
  have hword := high_append_low (n := 24) (s := 8) w
  rw [hfixed] at hword
  exact congrArg _ hword

theorem encode_upload_opN (hfixed : w.extractLsb' 16 16 = 0x6000) : encode c (.upload (opN w)) = .command w := by
  have hword := high_append_low (n := 16) (s := 16) w
  rw [hfixed] at hword
  exact congrArg _ hword

end Operands

/-- A word of a row is the encoding of that row's command, with its operands read from the word. -/
theorem exists_encode_of_isCommandWord {c : Config} {w : Word} (h : isCommandWord c w) :
    ∃ i, encode c i = .command w ∧ i.wf c = true ∧ i.isCommand = true := by
  obtain hrdreg | hwrreg | rfl | hsetcpi | rfl | hupload | rfl | rfl | ⟨rfl, hinstr⟩ := (isCommandWord_iff c w).mp h
  · exact ⟨.rdreg (opA w), encode_rdreg_opA c hrdreg, rfl, rfl⟩
  · exact ⟨.wrreg (opA w) (opD w), encode_wrreg_opA_opD c hwrreg, rfl, rfl⟩
  · exact ⟨.getcpi, rfl, rfl, rfl⟩
  · exact ⟨.setcpi (opD w), encode_setcpi_opD c hsetcpi, rfl, rfl⟩
  · exact ⟨.init, rfl, rfl, rfl⟩
  · exact ⟨.upload (opN w), encode_upload_opN c hupload, rfl, rfl⟩
  · exact ⟨.rdmot, rfl, rfl, rfl⟩
  · exact ⟨.rdburst, rfl, rfl, rfl⟩
  · exact ⟨.scanrate, rfl, hinstr, rfl⟩

/-- A word of no row fails the decoder's tests one by one. -/
theorem decode_error_of_not_isCommandWord {c : Config} {w : Word} (h : ¬ isCommandWord c w) :
    ∃ why, decode c (.command w) = .error why := by
  simp only [isCommandWord_iff, not_or] at h
  obtain ⟨hrdreg, hwrreg, hgetcpi, hsetcpi, hinit, hupload, hrdmot, hrdburst, hscanrate⟩ := h
  rw [decode, decodeCommand, if_neg hrdreg, if_neg hwrreg, if_neg hgetcpi, if_neg hsetcpi, if_neg hinit,
    if_neg hupload, if_neg hrdmot, if_neg hrdburst]
  by_cases hw : w = 0x90000000
  · exact ⟨.noInstrumentation, by rw [if_pos hw, if_neg fun hinstr => hscanrate ⟨hw, hinstr⟩]⟩
  · rw [if_neg hw]
    split <;> exact ⟨_, rfl⟩

theorem isCommandWord_of_decode_ok {c : Config} {w : Word} {i : Instr} (hok : decode c (.command w) = .ok i) :
    isCommandWord c w := by
  by_contra hnot
  obtain ⟨why, herror⟩ := decode_error_of_not_isCommandWord hnot
  cases hok.symm.trans herror

/-- The command that a word of a row encodes is the one it decodes to, since an encoding decodes to itself. -/
theorem encode_of_decodeCommand_ok {c : Config} {w : Word} {i : Instr} (hok : decode c (.command w) = .ok i) :
    encode c i = .command w ∧ i.wf c = true ∧ i.isCommand = true := by
  obtain ⟨j, hencode, hwf, hcommand⟩ := exists_encode_of_isCommandWord (isCommandWord_of_decode_ok hok)
  have hj : decode c (.command w) = .ok j := hencode ▸ encodingDecodesToItself c j hwf
  cases hok.symm.trans hj
  exact ⟨hencode, hwf, hcommand⟩

/-- Settles O3: a word of a row is the encoding of that row's command, and a word of no row fails every test. -/
theorem commandWordsAreTheTableRows : Obligations.CommandWordsAreTheTableRows := by
  intro c w
  refine ⟨⟨fun ⟨_, hok⟩ => isCommandWord_of_decode_ok hok, fun hrow => ?_⟩, fun i hok => ?_⟩
  · obtain ⟨j, hencode, hwf, -⟩ := exists_encode_of_isCommandWord hrow
    exact ⟨j, hencode ▸ encodingDecodesToItself c j hwf⟩
  · obtain ⟨-, -, hcommand⟩ := encode_of_decodeCommand_ok hok
    exact hcommand

/-! ### A request that decodes is an encoding -/

theorem encode_of_decodeFrame8_ok {c : Config} {b : Byte} {k : Follow} {i : Instr} (h : decodeFrame8 c b k = .ok i) :
    encode c i = .frame8 b k ∧ i.wf c = true := by
  cases k with
  | oneReceive =>
    rw [decodeFrame8] at h
    split at h
    · cases h
    · next hbit => cases h; exact ⟨congrArg (Request.frame8 · _) (readByte_of_bit7_clear hbit), rfl⟩
  | sixReceives =>
    rw [decodeFrame8] at h
    split at h
    · next hraw => cases h; exact ⟨congrArg (Request.frame8 · _) hraw.symm, rfl⟩
    · cases h
  | imageBytes n =>
    rw [decodeFrame8] at h
    split at h
    · next hraw => cases h; exact ⟨congrArg (Request.frame8 · _) hraw.symm, rfl⟩
    · cases h

theorem encode_of_decodeFrame16_ok {c : Config} {h : Half} {i : Instr} (hdec : decodeFrame16 h = .ok i) :
    encode c i = .frame16 h ∧ i.wf c = true := by
  rw [decodeFrame16] at hdec
  split at hdec
  · next hbit => cases hdec; exact ⟨congrArg _ (writeByte_append_of_bit15_set hbit), rfl⟩
  · cases hdec

/-- Settles O2: the inversion of the decoder, one for each form of request. -/
theorem decodedRequestIsItsEncoding : Obligations.DecodedRequestIsItsEncoding := by
  intro c r i h
  cases r with
  | command w =>
    obtain ⟨hencode, hwf, -⟩ := encode_of_decodeCommand_ok h
    exact ⟨hencode, hwf⟩
  | frame8 b k => exact encode_of_decodeFrame8_ok h
  | frame16 h' => exact encode_of_decodeFrame16_ok h

/-! ### Reserved words (30_encoding.md R86, R87) -/

/-- Settles O5: the decoder's reason is the reason of the refusal. -/
theorem reservedWordIsRefused : Obligations.ReservedWordIsRefused := by
  intro s w hidle hrst hreq hnot
  obtain ⟨why, hdec⟩ := decode_error_of_not_isCommandWord hnot
  exact ⟨why, by simp [step_offered hrst hidle hreq, offer, hdec]⟩

/-- Every row fixes the four bits of `OP`, so a word of a row has the row's `OP`. -/
theorem opcode_of_row {c : Config} {w : Word} {row : Word × Word} (hrow : row ∈ commandRows c)
    (hmatch : w &&& row.2 = row.1) : w.extractLsb' 28 4 = row.1.extractLsb' 28 4 := by
  have hmask : ∀ row ∈ commandRows c, row.2.extractLsb' 28 4 = BitVec.allOnes 4 := by
    cases hinstr : c.hasInstr <;> simp [commandRows, hinstr]
  rw [← hmatch, BitVec.extractLsb'_and, hmask row hrow, BitVec.and_allOnes]

theorem not_isCommandWord_of_scanrate_opcode {c : Config} {w : Word} (hinstr : c.hasInstr = false)
    (hop : w.extractLsb' 28 4 = 0x9) : ¬ isCommandWord c w := by
  rintro ⟨row, hrow, hmatch⟩
  have hne : ∀ row ∈ commandRows c, row.1.extractLsb' 28 4 ≠ 0x9 := by simp [commandRows, hinstr]
  exact hne row hrow ((opcode_of_row hrow hmatch).symm.trans hop)

/-- Settles O6: without SCANRATE's row, no row has `OP = 0x9`. -/
theorem scanrateIsReservedWithoutInstrumentation : Obligations.ScanrateIsReservedWithoutInstrumentation := by
  rintro c s w hinstr rfl hop
  have hnot := not_isCommandWord_of_scanrate_opcode hinstr hop
  refine ⟨decode_error_of_not_isCommandWord hnot, fun hidle hdrive => ?_, ?_⟩
  · exact reservedWordIsRefused s w hidle (by rw [hdrive]; rfl) (by rw [hdrive]; rfl) hnot
  · simp [exec, execScanrate, hinstr]

end Sys2Proof.Encoding
end

section
/-! PROOFS. The bus transport (40_bus_transport.md): its primitives as equations of the whole state, and a running command,
which is idle again within as many steps as it has primitives to come (R115). -/

namespace Sys2Proof.Machine

/-! ### The primitives -/

/-- Settles O9: the model's two operations are these writes. -/
theorem chipSelectWritesAreRecorded : Obligations.ChipSelectWritesAreRecorded := fun _ => ⟨rfl, rfl⟩

/-- Settles O10: both are the one exchange, of which `Send` drops the answer and `Recv` returns it. -/
theorem exchangesUseOneAnswerEach : Obligations.ExchangesUseOneAnswerEach := by
  intro s b
  rw [List.drop_one]
  exact ⟨rfl, rfl⟩

/-! ### A running command gets nearer to its end with every step -/

/-- After a primitive the command has ended, or exactly the primitives behind this one are still to come. -/
theorem runPrimitive_seq (k : Nat) (m : Micro) (ms : List Micro) (rx : List Byte) (s : State) :
    (runPrimitive k (m :: ms) rx s).seq = .idle ∨
    ms ≠ [] ∧ ∃ rx', (runPrimitive k (m :: ms) rx s).seq = .run (k + 1) ms rx' := by
  rw [runPrimitive_cons]
  obtain hrest | hcut := doMicro_rest m ms s rx
  · rw [hrest]
    cases ms with
    | nil => exact .inl rfl
    | cons m' ms => exact .inr ⟨List.cons_ne_nil _ _, _, rfl⟩
  · rw [hcut]
    exact .inl rfl

/-- With no reset among the coming drives there is none in this step; past their end the host drives nothing. -/
theorem drive_rst_of_drives {s : State} (h : ∀ d ∈ s.drives, d.rst = false) : s.drive.rst = false := by
  unfold State.drive
  cases hdrives : s.drives with
  | nil => rfl
  | cons d ds => exact h d (by simp [hdrives])

/-- The block is idle after at most `b` steps from `s`. -/
def IdleWithin (b : Nat) (s : State) : Prop :=
  ∃ (n : Nat) (t : State), n ≤ b ∧ core.run n s = .next t ∧ t.seq = .idle

theorem IdleWithin.of_idle {s : State} (h : s.seq = .idle) (b : Nat) : IdleWithin b s := ⟨0, s, b.zero_le, rfl, h⟩

theorem IdleWithin.of_step {s t : State} {b : Nat} (hstep : step s = .next t) (h : IdleWithin b t) :
    IdleWithin (b + 1) s := by
  obtain ⟨n, u, hn, hrun, hidle⟩ := h
  exact ⟨n + 1, u, Nat.succ_le_succ hn, (run_succ_of_step hstep n).trans hrun, hidle⟩

/-- Settles O43, by induction on the primitives to come: a step runs the first of them, and the drives behind it bring no
reset either. -/
theorem runningCommandEndsInBoundedSteps : Obligations.RunningCommandEndsInBoundedSteps := by
  intro s k rest rx hseq hrst
  change IdleWithin (max 1 rest.length) s
  induction rest generalizing s k rx with
  | nil => exact .of_step (step_running (drive_rst_of_drives hrst) hseq) (.of_idle rfl 0)
  | cons m ms ih =>
    have hstep := step_running (drive_rst_of_drives hrst) hseq
    rw [List.length_cons, Nat.max_eq_right (Nat.le_add_left 1 _)]
    obtain hidle | ⟨hne, rx', hnext⟩ := runPrimitive_seq k m ms rx s.takeDrive
    · exact .of_step hstep (.of_idle hidle ms.length)
    · have hlater : ∀ d ∈ (runPrimitive k (m :: ms) rx s.takeDrive).drives, d.rst = false := by
        rw [(runPrimitive_extends k (m :: ms) rx s.takeDrive).drives]
        exact fun d hd => hrst d (List.mem_of_mem_tail hd)
      have hwithin := ih _ _ _ hnext hlater
      rw [Nat.max_eq_right (List.length_pos_iff.mpr hne)] at hwithin
      exact .of_step hstep hwithin

end Sys2Proof.Machine
end

section
/-! PROOFS. Register access (41_register_access.md): RDREG and WRREG as equations of the whole state, and what register
reads and writes leave unchanged (10_state.md section 4). -/

namespace Sys2Proof.Machine

open Sys2Proof.Safety

/-! ### The two commands as equations -/

/-- The flag update of R130 with the motion-burst register as the positive case. -/
theorem burstAfterRead_eq (c : Config) (a : Addr) (burst : Bool) :
    burstAfterRead c a burst = if a = c.regMotionBurst then burst else false :=
  ite_not ..

/-- Settles O15: the command is `RdReg(a)`, its byte kept in `RES_BYTE`. -/
theorem rdregReadsOneRegister : Obligations.RdregReadsOneRegister := by
  intro a s
  rw [exec, execRdreg, rdReg_eq, burstAfterRead_eq]

/-- Settles O16: the command is `WrReg(a, d)`, which has no flag update. -/
theorem wrregWritesOneRegister : Obligations.WrregWritesOneRegister := by
  intro a d s
  rw [exec, execWrreg, wrReg_eq]

/-- GETCPI is RDREG of `REG_CPI` (42_sensor_control.md R140). -/
theorem exec_getcpi_eq_rdreg (s : State) : exec .getcpi s = exec (.rdreg s.cfg.regCpi) s := rfl

/-- SETCPI is WRREG of the clamped value to `REG_CPI` (42_sensor_control.md R141). -/
theorem exec_setcpi_eq_wrreg (d : Byte) (s : State) :
    exec (.setcpi d) s = exec (.wrreg s.cfg.regCpi (clampCpi s.cfg d)) s := rfl

/-! ### What bus activity leaves unchanged -/

theorem keepsScan_busDone (s : State) (k : Nat) (es : List Event) : keepsScan s (busDone s k es) :=
  ⟨rfl, rfl, rfl, rfl, rfl⟩

theorem keepsRest_busDone (s : State) (k : Nat) (es : List Event) : keepsRest s (busDone s k es) :=
  ⟨rfl, rfl, rfl, rfl, rfl, rfl, fun _ => rfl⟩

/-- The register reads in one form: bus activity and a write of `RES_BYTE` and `BURST`, which a frame alone leaves out. -/
theorem registerRead_next {i : Instr} {s t : State}
    (hi : (∃ a, i = .rdreg a) ∨ i = .getcpi ∨ ∃ a, i = .wireRead a) (h : exec i s = .next t) :
    ∃ k es b f, t = { busDone s k es with resByte := b, burst := f } ∧
      ((∃ a, i = .wireRead a) → b = s.resByte ∧ f = s.burst) := by
  obtain ⟨a, rfl⟩ | rfl | ⟨a, rfl⟩ := hi
  · obtain rfl := Host.Outcome.next.inj ((rdregReadsOneRegister a s).symm.trans h)
    exact ⟨_, _, _, _, rfl, nofun⟩
  · rw [exec_getcpi_eq_rdreg] at h
    obtain rfl := Host.Outcome.next.inj ((rdregReadsOneRegister s.cfg.regCpi s).symm.trans h)
    exact ⟨_, _, _, _, rfl, nofun⟩
  · obtain rfl := Host.Outcome.next.inj ((Frames.readFrameEvents a s).symm.trans h)
    exact ⟨_, _, s.resByte, s.burst, rfl, fun _ => ⟨rfl, rfl⟩⟩

/-- The register writes and the SROM-LOAD frame in one form: bus activity, and image reads of the SROM-LOAD frame. -/
theorem registerWrite_next {i : Instr} {s t : State}
    (hi : (∃ a d, i = .wrreg a d) ∨ (∃ d, i = .setcpi d) ∨ (∃ a d, i = .wireWrite a d) ∨ ∃ n, i = .wireSromLoad n)
    (h : exec i s = .next t) : ∃ k es m, t = { busDone s k es with imgDrawn := m } := by
  obtain ⟨a, d, rfl⟩ | ⟨d, rfl⟩ | ⟨a, d, rfl⟩ | ⟨n, rfl⟩ := hi
  · obtain rfl := Host.Outcome.next.inj ((wrregWritesOneRegister a d s).symm.trans h)
    exact ⟨_, _, s.imgDrawn, rfl⟩
  · rw [exec_setcpi_eq_wrreg] at h
    obtain rfl := Host.Outcome.next.inj ((wrregWritesOneRegister s.cfg.regCpi (clampCpi s.cfg d) s).symm.trans h)
    exact ⟨_, _, s.imgDrawn, rfl⟩
  · obtain rfl := Host.Outcome.next.inj ((Frames.writeFrameEvents a d s).symm.trans h)
    exact ⟨_, _, s.imgDrawn, rfl⟩
  · obtain rfl := Host.Outcome.next.inj ((Frames.sromLoadFrameEvents n s).symm.trans h)
    exact ⟨_, _, _, rfl⟩

/-! ### The two frames of 10_state.md section 4 -/

/-- Settles O29: beside the bus activity a register read writes two registers, of which the statement says nothing except
for the READ frame alone. -/
theorem registerReadsKeepTheRest : Obligations.RegisterReadsKeepTheRest := by
  intro i s t hi h
  obtain ⟨k, es, b, f, rfl, hframe⟩ := registerRead_next hi h
  exact ⟨rfl, rfl, rfl, rfl, rfl, rfl, keepsScan_busDone s k es, keepsRest_busDone s k es, rfl, rfl, hframe⟩

/-- Settles O30: beside the bus activity a register write moves at most the counter of image reads. -/
theorem registerWritesKeepEveryRegister : Obligations.RegisterWritesKeepEveryRegister := by
  intro i s t hi h
  obtain ⟨k, es, m, rfl⟩ := registerWrite_next hi h
  exact ⟨rfl, rfl, rfl, rfl, rfl, rfl, rfl, rfl, keepsScan_busDone s k es, keepsRest_busDone s k es, rfl⟩

end Sys2Proof.Machine
end

section
/-! PROOFS. Sensor control (42_sensor_control.md): GETCPI and SETCPI from the register access they are, INIT and UPLOAD as
equations of the whole state in every configuration, and what these two leave unchanged (10_state.md section 4). -/

namespace Sys2Proof.Machine

open Sys2Proof.Safety

/-! ### GETCPI and SETCPI -/

/-- Settles O17: RDREG of an address that R11 keeps apart from the motion-burst register. -/
theorem getcpiReadsTheCpiRegister : Obligations.GetcpiReadsTheCpiRegister := by
  intro s hok
  obtain ⟨-, hcpi, -⟩ := ok_addresses hok
  rw [exec_getcpi_eq_rdreg, rdregReadsOneRegister, if_neg hcpi]

/-- The model's comparison of bytes gives the smaller of the two numbers (R141). -/
theorem clampCpi_eq_ofNat_min (c : Config) (d : Byte) :
    clampCpi c d = BitVec.ofNat 8 (min d.toNat c.cpiMax.toNat) := by
  unfold clampCpi
  split
  next hle => rw [Nat.min_eq_left hle, BitVec.ofNat_toNat, BitVec.setWidth_eq]
  next hgt => rw [Nat.min_eq_right (Nat.le_of_not_le hgt), BitVec.ofNat_toNat, BitVec.setWidth_eq]

/-- Settles O18: WRREG of the clamped value. -/
theorem setcpiWritesTheClampedValue : Obligations.SetcpiWritesTheClampedValue := by
  intro d s
  rw [exec_setcpi_eq_wrreg, wrregWritesOneRegister, clampCpi_eq_ofNat_min]

/-! ### The shared operations after some bus activity

A command run from `s` is at every moment in a state `busDone u k es`: `k` exchanges and the events `es` after `u`, which is
`s` with the registers written so far. Each operation adds its events and its exchanges. -/

theorem busDone_sel (s : State) (k : Nat) (es : List Event) : busDone s.sel k es = busDone s k ([.sel] ++ es) := by
  simp [busDone, State.sel]

theorem waitUs_busDone (u : State) (k : Nat) (es : List Event) (d : Nat) :
    (busDone u k es).waitUs d = busDone u k (es ++ [.wait d]) := by
  simp [busDone, State.waitUs, State.emit]

theorem desel_busDone (u : State) (k : Nat) (es : List Event) :
    (busDone u k es).desel = busDone u k (es ++ [.desel]) := by
  simp [busDone, State.desel]

theorem wrReg_sel (a : Addr) (d : Byte) (s : State) :
    wrReg a d s.sel = busDone s 2 ([.sel] ++ writeEvents s.cfg a d (s.answer 0) (s.answer 1)) := by
  rw [wrReg_eq, busDone_sel]
  rfl

theorem wrReg_busDone (a : Addr) (d : Byte) (u : State) (k : Nat) (es : List Event) :
    wrReg a d (busDone u k es)
      = busDone u (k + 2) (es ++ writeEvents u.cfg a d (u.answer k) (u.answer (k + 1))) := by
  rw [wrReg_eq, busDone_busDone, busDone_answer, busDone_answer]
  rfl

theorem rdReg_busDone (a : Addr) (u : State) (k : Nat) (es : List Event) :
    rdReg a (busDone u k es)
      = (u.answer (k + 1),
         busDone { u with burst := burstAfterRead u.cfg a u.burst } (k + 2)
          (es ++ readEvents u.cfg a (u.answer k) (u.answer (k + 1)))) := by
  rw [rdReg_eq, busDone_busDone, busDone_answer, busDone_answer]
  rfl

theorem sromFrame_busDone (n : Nat) (u : State) (k : Nat) (es : List Event) :
    sromFrame n (busDone u k es)
      = busDone { u with imgDrawn := u.imgDrawn + n } (n + (k + 1))
          (es ++ sromFrameEvents u.cfg n (fun i => u.imageByte i i) (fun j => u.answer (k + j))) := by
  rw [sromFrame_eq, busDone_busDone, sromFrameEvents_congr _ _ _ (busDone_answer u k · es), Nat.add_left_comm]
  rfl

theorem setSromId_busDone (b : Byte) (u : State) (k : Nat) (es : List Event) :
    { busDone u k es with sromId := b } = busDone { u with sromId := b } k es := rfl

/-! ### INIT -/

/-- INIT's events (R142); `ans k` is the device's `k`-th answer. -/
def initEvents (c : Config) (ans : Nat → Byte) : List Event :=
  [.sel]
    ++ writeEvents c c.regPowerReset c.powerResetMagic (ans 0) (ans 1)
    ++ [.wait c.tReset]
    ++ readEvents c c.regMotion (ans 2) (ans 3)
    ++ readEvents c c.regDeltaXL (ans 4) (ans 5)
    ++ readEvents c c.regDeltaXH (ans 6) (ans 7)
    ++ readEvents c c.regDeltaYL (ans 8) (ans 9)
    ++ readEvents c c.regDeltaYH (ans 10) (ans 11)
    ++ writeEvents c c.regConfig c.initConfigValue (ans 12) (ans 13)
    ++ readEvents c c.regProductId (ans 14) (ans 15)
    ++ readEvents c c.regRevisionId (ans 16) (ans 17)
    ++ [.desel]

/-- The registers INIT reads, in order (R142). -/
def initReads (c : Config) : List Addr :=
  [c.regMotion, c.regDeltaXL, c.regDeltaXH, c.regDeltaYL, c.regDeltaYH, c.regProductId, c.regRevisionId]

/-- `BURST` after reads of the registers `as`, one `RdReg` after the other (41_register_access.md R130). -/
def burstAfterReads (c : Config) (as : List Addr) (burst : Bool) : Bool :=
  as.foldl (fun b a => burstAfterRead c a b) burst

theorem burstAfterReads_cons (c : Config) (a : Addr) (as : List Addr) (burst : Bool) :
    burstAfterReads c (a :: as) burst = burstAfterReads c as (burstAfterRead c a burst) := rfl

theorem burstAfterReads_false (c : Config) (as : List Addr) : burstAfterReads c as false = false := by
  induction as with
  | nil => rfl
  | cons a as ih => rw [burstAfterReads_cons, burstAfterRead_false, ih]

/-- Later reads do not raise the flag that the first one left false. -/
theorem burstAfterReads_cons_ne {c : Config} {a : Addr} (h : a ≠ c.regMotionBurst) (as : List Addr) (burst : Bool) :
    burstAfterReads c (a :: as) burst = false := by
  rw [burstAfterReads_cons, burstAfterRead_ne h, burstAfterReads_false]

theorem identityOk_eq_decide (c : Config) (pid rev : Byte) :
    identityOk c pid rev = decide (pid = c.productIdExpect ∧ rev = c.revisionIdExpect) := by
  rw [identityOk, Bool.decide_and]
  rfl

/-- INIT in every configuration: R11 is needed for the value of the flag only. The rules above run the command operation by
operation, from the outer `Sel` on. -/
theorem exec_init_eq (s : State) :
    exec .init s
      = .next { busDone s 18 (initEvents s.cfg s.answer) with
                burst := burstAfterReads s.cfg (initReads s.cfg) s.burst
                resOk := decide (s.answer 15 = s.cfg.productIdExpect ∧ s.answer 17 = s.cfg.revisionIdExpect) } := by
  simp only [exec, execInit, wrReg_sel, waitUs_busDone, rdReg_busDone, wrReg_busDone, desel_busDone,
    identityOk_eq_decide]
  rfl

/-- Settles O19: the first of INIT's reads already leaves the flag false. -/
theorem initResetsAndIdentifies : Obligations.InitResetsAndIdentifies := by
  intro s hok
  obtain ⟨hmotion, -, -⟩ := ok_addresses hok
  rw [exec_init_eq, initReads, burstAfterReads_cons_ne hmotion]
  rfl

/-! ### UPLOAD -/

/-- UPLOAD's events (R143); `byte i` is image byte `i`, `ans k` the device's `k`-th answer. -/
def uploadEvents (c : Config) (n : Nat) (byte ans : Nat → Byte) : List Event :=
  writeEvents c c.regConfig c.uploadConfigBaseline (ans 0) (ans 1)
    ++ writeEvents c c.regSromEnable c.sromUnlock (ans 2) (ans 3)
    ++ [.wait c.tSromEnGap]
    ++ writeEvents c c.regSromEnable c.sromConfirm (ans 4) (ans 5)
    ++ sromFrameEvents c n byte (fun k => ans (6 + k))
    ++ [.wait c.tLoadEnd]
    ++ readEvents c c.regSromId (ans (n + 7)) (ans (n + 8))
    ++ writeEvents c c.regConfig c.uploadConfigReset (ans (n + 9)) (ans (n + 10))
    ++ [.wait c.tUploadEnd]

/-- UPLOAD in every configuration: R11 is needed for the value of the flag only. Its first `WrReg` brings the state into the
form `busDone`, and the rules above run the rest. -/
theorem exec_upload_eq (n : Half) (s : State) :
    exec (.upload n) s
      = .next { busDone s (n.toNat + 11) (uploadEvents s.cfg n.toNat (fun i => s.imageByte i i) s.answer) with
                imgDrawn := s.imgDrawn + n.toNat
                burst := burstAfterRead s.cfg s.cfg.regSromId s.burst
                sromId := s.answer (n.toNat + 8) } := by
  simp only [exec, execUpload, wrReg_eq s.cfg.regConfig s.cfg.uploadConfigBaseline s, waitUs_busDone, wrReg_busDone,
    sromFrame_busDone, rdReg_busDone, setSromId_busDone]
  rfl

/-- Settles O20: the one read of UPLOAD leaves the flag false. -/
theorem uploadStreamsTheImage : Obligations.UploadStreamsTheImage := by
  intro n s hok
  obtain ⟨-, -, hsrom⟩ := ok_addresses hok
  rw [exec_upload_eq, burstAfterRead_ne hsrom]
  rfl

/-! ### The frame of the two commands (10_state.md section 4) -/

/-- The two commands in one form: bus activity, image reads of UPLOAD, and a write of `BURST` and of one register more. -/
theorem initOrUpload_next {i : Instr} {s t : State} (hi : i = .init ∨ ∃ n, i = .upload n) (h : exec i s = .next t) :
    ∃ k es m f id ok, t = { busDone s k es with imgDrawn := m, burst := f, sromId := id, resOk := ok } ∧
      (i = .init → id = s.sromId) ∧ ((∃ n, i = .upload n) → ok = s.resOk) := by
  obtain rfl | ⟨n, rfl⟩ := hi
  · obtain rfl := Host.Outcome.next.inj ((exec_init_eq s).symm.trans h)
    exact ⟨_, _, s.imgDrawn, _, s.sromId, _, rfl, fun _ => rfl, nofun⟩
  · obtain rfl := Host.Outcome.next.inj ((exec_upload_eq n s).symm.trans h)
    exact ⟨_, _, _, _, _, s.resOk, rfl, nofun, fun _ => rfl⟩

/-- Settles O31: neither command writes a register of the statement, and each leaves the other's result alone. -/
theorem initAndUploadKeepTheRest : Obligations.InitAndUploadKeepTheRest := by
  intro i s t hi h
  obtain ⟨k, es, m, f, id, ok, rfl, hid, hok⟩ := initOrUpload_next hi h
  exact ⟨rfl, rfl, rfl, rfl, rfl, keepsScan_busDone s k es, keepsRest_busDone s k es, rfl, hid, hok⟩

end Sys2Proof.Machine
end

section
/-! PROOFS. The motion reader (43_motion_reader.md): RDMOT and RDBURST as equations of the whole state after their poll,
`BURST` after every instruction (R162, R163), and what the motion reads leave unchanged (10_state.md section 4). -/

namespace Sys2Proof.Machine

open Sys2Proof.Safety

/-! ### The parts of the two commands -/

theorem motionSeen_iff (c : Config) (st : Byte) :
    motionSeen c st = true ↔ st &&& c.motionMask = c.motionExpect := beq_iff_eq

/-- The delta registers in the order RDMOT reads them (R160). -/
def deltaReads (c : Config) : List Addr := [c.regDeltaXL, c.regDeltaXH, c.regDeltaYL, c.regDeltaYH]

/-- RDMOT's events with new motion (R160); `ans k` is the device's `k`-th answer. -/
def motionEvents (c : Config) (ans : Nat → Byte) : List Event :=
  readEvents c c.regMotion (ans 0) (ans 1)
    ++ readEvents c c.regDeltaXL (ans 2) (ans 3)
    ++ readEvents c c.regDeltaXH (ans 4) (ans 5)
    ++ readEvents c c.regDeltaYL (ans 6) (ans 7)
    ++ readEvents c c.regDeltaYH (ans 8) (ans 9)

theorem readDeltas_busDone (u : State) (k : Nat) (es : List Event) :
    readDeltas (busDone u k es)
      = { busDone u (k + 8)
            (es ++ readEvents u.cfg u.cfg.regDeltaXL (u.answer k) (u.answer (k + 1))
              ++ readEvents u.cfg u.cfg.regDeltaXH (u.answer (k + 2)) (u.answer (k + 3))
              ++ readEvents u.cfg u.cfg.regDeltaYL (u.answer (k + 4)) (u.answer (k + 5))
              ++ readEvents u.cfg u.cfg.regDeltaYH (u.answer (k + 6)) (u.answer (k + 7))) with
          burst := burstAfterReads u.cfg (deltaReads u.cfg) u.burst
          sampleX := u.answer (k + 3) ++ u.answer (k + 1)
          sampleY := u.answer (k + 7) ++ u.answer (k + 5)
          resOk := true } := by
  simp only [readDeltas, rdReg_busDone]
  rfl

/-- `RdReg(a)` with its flag update among the registers that bus activity keeps. -/
theorem rdReg_eq_busDone (a : Addr) (s : State) :
    rdReg a s = (s.answer 1, busDone { s with burst := burstAfterRead s.cfg a s.burst } 2
      (readEvents s.cfg a (s.answer 0) (s.answer 1))) :=
  rdReg_eq a s

theorem burstFrame_eq_busDone (s : State) :
    burstFrame s = busDone { s with buf := bufOf s.answer } 7 (burstFrameEvents s.cfg s.answer) :=
  burstFrame_eq s

theorem burstFrame_busDone (u : State) (k : Nat) (es : List Event) :
    burstFrame (busDone u k es)
      = busDone { u with buf := bufOf (fun j => u.answer (k + j)) } (k + 7)
          (es ++ burstFrameEvents u.cfg (fun j => u.answer (k + j))) := by
  rw [burstFrame_eq, busDone_busDone, show (busDone u k es).answer = fun j => u.answer (k + j) from
    funext (busDone_answer u k · es)]
  rfl

/-- In burst mode there is no setup step (R161). -/
theorem enterBurst_of_burst {s : State} (h : s.burst = true) : enterBurst s = s := if_pos h

/-- The setup step is one entry write (R161). -/
theorem enterBurst_of_not_burst {s : State} (h : s.burst = false) :
    enterBurst s = busDone { s with burst := true } 2
      (writeEvents s.cfg s.cfg.regMotionBurst s.cfg.burstEntryValue (s.answer 0) (s.answer 1)) := by
  simp only [enterBurst, h, Bool.false_eq_true, if_false, wrReg_eq]
  rfl

/-! ### The two commands after their poll

The equations speak of the state `p` after the poll, so that they hold whatever the poll did. -/

section AfterPoll

variable {s p : State} (hp : p = poll s)
include hp

/-- RDMOT without new motion, in every configuration: R11 is needed for the value of the flag only. -/
theorem exec_rdmot_still (h : p.answer 1 &&& p.cfg.motionMask ≠ p.cfg.motionExpect) :
    exec .rdmot s
      = .next { busDone p 2 (readEvents p.cfg p.cfg.regMotion (p.answer 0) (p.answer 1)) with
                burst := burstAfterRead p.cfg p.cfg.regMotion p.burst
                resOk := false } := by
  simp only [exec, execRdmot, ← hp, rdReg_eq, motionSeen_iff, if_neg h]

/-- RDMOT with new motion, in every configuration. -/
theorem exec_rdmot_moved (h : p.answer 1 &&& p.cfg.motionMask = p.cfg.motionExpect) :
    exec .rdmot s
      = .next { busDone p 10 (motionEvents p.cfg p.answer) with
                burst := burstAfterReads p.cfg (p.cfg.regMotion :: deltaReads p.cfg) p.burst
                sampleX := p.answer 5 ++ p.answer 3
                sampleY := p.answer 9 ++ p.answer 7
                resOk := true } := by
  simp only [exec, execRdmot, ← hp, rdReg_eq_busDone, motionSeen_iff, if_pos h, readDeltas_busDone]
  rfl

theorem exec_rdburst_of_burst (h : p.burst = true) :
    exec .rdburst s
      = .next { busDone p 7 (burstFrameEvents p.cfg p.answer ++ [.wait p.cfg.tBurstGap]) with
                buf := bufOf p.answer
                sampleX := p.answer 4 ++ p.answer 3
                sampleY := p.answer 6 ++ p.answer 5
                resOk := true } := by
  simp only [exec, execRdburst, ← hp, enterBurst_of_burst h, burstFrame_eq_busDone, waitUs_busDone]
  rfl

theorem exec_rdburst_of_not_burst (h : p.burst = false) :
    exec .rdburst s
      = .next { busDone p 9
                  (writeEvents p.cfg p.cfg.regMotionBurst p.cfg.burstEntryValue (p.answer 0) (p.answer 1)
                    ++ burstFrameEvents p.cfg (fun k => p.answer (2 + k)) ++ [.wait p.cfg.tBurstGap]) with
                burst := true
                buf := bufOf (fun k => p.answer (2 + k))
                sampleX := p.answer 6 ++ p.answer 5
                sampleY := p.answer 8 ++ p.answer 7
                resOk := true } := by
  simp only [exec, execRdburst, ← hp, enterBurst_of_not_burst h, burstFrame_busDone, waitUs_busDone]
  rfl

end AfterPoll

/-- Settles O24: on both paths the status read leaves the flag false, and the delta reads do not raise it. -/
theorem rdmotReadsMotion : Obligations.RdmotReadsMotion := by
  intro s p hok hp
  obtain ⟨hcfg, -, -, -, hanswer⟩ := poll_keeps s
  rw [← hp] at hcfg hanswer
  obtain ⟨hmotion, -, -⟩ := ok_addresses hok
  rw [← hcfg] at hmotion
  rw [← hcfg, ← hanswer]
  refine ⟨fun hstill => ?_, fun hmoved => ?_⟩
  · rw [exec_rdmot_still hp hstill, burstAfterRead_ne hmotion]
  · rw [exec_rdmot_moved hp hmoved, burstAfterReads_cons_ne hmotion]
    rfl

/-- Settles O25: the poll leaves `BURST`, the configuration and the coming answers as they were, so both equations apply. -/
theorem rdburstStreamsMotion : Obligations.RdburstStreamsMotion := by
  intro s p hp
  obtain ⟨hcfg, hburst, -, -, hanswer⟩ := poll_keeps s
  rw [← hp] at hcfg hburst hanswer
  rw [← hcfg, ← hburst, ← hanswer]
  exact ⟨exec_rdburst_of_burst hp, exec_rdburst_of_not_burst hp⟩

/-! ### `BURST` after every instruction -/

/-- An equation of an instruction says which next state it answers. -/
theorem exec_next_unique {i : Instr} {s t u : State} (hu : exec i s = .next u) (h : exec i s = .next t) : u = t :=
  Host.Outcome.next.inj (hu.symm.trans h)

theorem burst_of_exec_rdmot {s t : State} (hok : s.cfg.ok = true) (h : exec .rdmot s = .next t) : t.burst = false := by
  obtain ⟨hstill, hmoved⟩ := rdmotReadsMotion s (poll s) hok rfl
  by_cases hseen : s.answer 1 &&& s.cfg.motionMask = s.cfg.motionExpect
  · obtain rfl := exec_next_unique (hmoved hseen) h
    rfl
  · obtain rfl := exec_next_unique (hstill hseen) h
    rfl

theorem burst_of_exec_rdburst {s t : State} (h : exec .rdburst s = .next t) : t.burst = true := by
  obtain ⟨hin, hout⟩ := rdburstStreamsMotion s (poll s) rfl
  cases hburst : s.burst with
  | true =>
    obtain rfl := exec_next_unique (hin hburst) h
    exact (poll_burst s).trans hburst
  | false =>
    obtain rfl := exec_next_unique (hout hburst) h
    rfl

/-- Settles O26: each row of the table from the equation of its instruction. -/
theorem burstFlagStateMachine : Obligations.BurstFlagStateMachine := by
  intro i s t hok h
  cases i with
  | rdburst => exact burst_of_exec_rdburst h
  | rdmot => exact burst_of_exec_rdmot hok h
  | getcpi =>
    obtain rfl := exec_next_unique (getcpiReadsTheCpiRegister s hok) h
    rfl
  | init =>
    obtain rfl := exec_next_unique (initResetsAndIdentifies s hok) h
    rfl
  | upload n =>
    obtain rfl := exec_next_unique (uploadStreamsTheImage n s hok) h
    rfl
  | rdreg a =>
    obtain rfl := exec_next_unique (rdregReadsOneRegister a s) h
    rfl
  | wrreg a d =>
    obtain ⟨hburst, -⟩ := registerWritesKeepEveryRegister (.wrreg a d) s t (.inl ⟨a, d, rfl⟩) h
    exact hburst
  | setcpi d =>
    obtain ⟨hburst, -⟩ := registerWritesKeepEveryRegister (.setcpi d) s t (.inr (.inl ⟨d, rfl⟩)) h
    exact hburst
  | scanrate =>
    obtain ⟨-, rfl⟩ := execScanrate_next h
    rfl
  | wireRead a => cases h; exact readFrame_burst a s
  | wireWrite a d => cases h; exact writeFrame_burst a d s
  | wireBurstRead => cases h; exact burstFrame_burst s
  | wireSromLoad n => cases h; exact sromFrame_burst n.toNat s

/-- Every command that reads a register other than the motion-burst register leaves the flag false (R162). -/
theorem burst_false_of_discrete_read {i : Instr} {s t : State} (hok : s.cfg.ok = true)
    (hi : i = .getcpi ∨ i = .init ∨ (∃ n, i = .upload n) ∨ i = .rdmot ∨ ∃ a, i = .rdreg a ∧ a ≠ s.cfg.regMotionBurst)
    (h : exec i s = .next t) : t.burst = false := by
  have hflag := burstFlagStateMachine i s t hok h
  obtain rfl | rfl | ⟨n, rfl⟩ | rfl | ⟨a, rfl, ha⟩ := hi
  · exact hflag
  · exact hflag
  · exact hflag
  · exact hflag
  · exact hflag.trans (if_neg ha)

/-- Settles O27: the discrete read leaves the flag false, and from there RDBURST sends its entry write. -/
theorem discreteReadForcesOneReentry : Obligations.DiscreteReadForcesOneReentry := by
  intro i s t hok hi h
  obtain ⟨-, hreentry⟩ := rdburstStreamsMotion t (poll t) rfl
  rw [← (exec_extends i h).cfg]
  refine ⟨_, hreentry (burst_false_of_discrete_read hok hi h), rfl, ?_⟩
  simp only [busDone, List.append_assoc]

/-! ### The frame of the motion reads (10_state.md section 4) -/

/-- Of what the two commands leave unchanged, nothing moves in the poll either (44_instrumentation.md R170). -/
theorem poll_frame (s : State) :
    (poll s).sromId = s.sromId ∧ (poll s).resByte = s.resByte ∧ (poll s).resRate = s.resRate ∧
    (poll s).buf = s.buf ∧ (poll s).imgDrawn = s.imgDrawn ∧ keepsRest s (poll s) := by
  obtain ⟨_, _, _, _, _, _, hpoll, -⟩ := poll_cases s
  rw [hpoll]
  exact ⟨rfl, rfl, rfl, rfl, rfl, rfl, rfl, rfl, rfl, rfl, rfl, fun _ => rfl⟩

/-- The motion commands in one form: after the poll, bus activity and a write of the registers they name. -/
theorem motionCommand_next {i : Instr} {s t : State} (hi : i = .rdmot ∨ i = .rdburst) (h : exec i s = .next t) :
    ∃ k es f b x y ok, t = { busDone (poll s) k es with
        burst := f, buf := b, sampleX := x, sampleY := y, resOk := ok } ∧
      (i = .rdmot → b = (poll s).buf) := by
  obtain rfl | rfl := hi
  · by_cases hseen : (poll s).answer 1 &&& (poll s).cfg.motionMask = (poll s).cfg.motionExpect
    · obtain rfl := exec_next_unique (exec_rdmot_moved rfl hseen) h
      exact ⟨_, _, _, (poll s).buf, _, _, _, rfl, fun _ => rfl⟩
    · obtain rfl := exec_next_unique (exec_rdmot_still rfl hseen) h
      exact ⟨_, _, _, (poll s).buf, (poll s).sampleX, (poll s).sampleY, _, rfl, fun _ => rfl⟩
  · cases hburst : (poll s).burst with
    | true =>
      obtain rfl := exec_next_unique (exec_rdburst_of_burst rfl hburst) h
      exact ⟨_, _, (poll s).burst, _, _, _, _, rfl, nofun⟩
    | false =>
      obtain rfl := exec_next_unique (exec_rdburst_of_not_burst rfl hburst) h
      exact ⟨_, _, _, _, _, _, _, rfl, nofun⟩

theorem wireBurstRead_next {s t : State} (h : exec .wireBurstRead s = .next t) :
    ∃ k es b, t = { busDone s k es with buf := b } := by
  obtain rfl := exec_next_unique (Frames.burstReadFrameEvents s) h
  exact ⟨_, _, _, rfl⟩

/-- Settles O32: the commands write beside the poll and the bus only registers of which the statement says nothing, and
the frame alone only `BUF`. -/
theorem motionReadsKeepTheRest : Obligations.MotionReadsKeepTheRest := by
  intro i s t hi h
  obtain hcommand | rfl := or_assoc.mpr hi
  · obtain ⟨k, es, f, b, x, y, ok, rfl, hbuf⟩ := motionCommand_next hcommand h
    obtain ⟨hsrom, hbyte, hrate, hpollBuf, himg, hrest⟩ := poll_frame s
    exact ⟨hsrom, hbyte, hrate, hrest, himg, rfl, fun hrdmot => (hbuf hrdmot).trans hpollBuf,
      fun hframe => by simp [hframe] at hcommand⟩
  · obtain ⟨k, es, b, rfl⟩ := wireBurstRead_next h
    exact ⟨rfl, rfl, rfl, keepsRest_busDone s k es, rfl, rfl, nofun,
      fun _ => ⟨rfl, rfl, rfl, rfl, keepsScan_busDone s k es⟩⟩

end Sys2Proof.Machine
end

section
/-! PROOFS. The performance instrumentation (44_instrumentation.md): `Poll()` and the window it counts (R170), SCANRATE (R173),
and that every command does the same to the rest of the block with and without the instrumentation (R174). -/

namespace Sys2Proof.Machine

open Sys2Proof.Safety

/-! ### Noninterference

`withoutInstr` commutes with every primitive and every register transfer, so a sequence of primitives run on `withoutInstr s`
ends in what it leaves of `s` outside the instrumentation. -/

/-- A bus event stays at the end of the trace when the instrumentation's events are taken out. -/
theorem filter_append_busEvent {e : Event} (he : isBusEvent e = true) (es : List Event) :
    (es ++ [e]).filter isBusEvent = es.filter isBusEvent ++ [e] := by
  rw [List.filter_append, List.filter_singleton, he, cond_true]

/-- `Poll()` moves nothing but the instrumentation's own state and events (R174). -/
theorem withoutInstr_poll (s : State) : withoutInstr (poll s) = withoutInstr s := by
  obtain ⟨_, _, _, _, _, es, hpoll, hes⟩ := poll_cases s
  rw [hpoll]
  simp only [withoutInstr, List.filter_append, hes, List.append_nil]

theorem poll_withoutInstr (s : State) : poll (withoutInstr s) = withoutInstr s := poll_absent _ rfl

/-- An exchange answers and records the same (20_memory.md R66). -/
theorem exchange_withoutInstr (s : State) (out : Byte) :
    (withoutInstr s).exchange out = ((s.exchange out).1, withoutInstr (s.exchange out).2) := by
  simp only [State.exchange, withoutInstr, filter_append_busEvent (e := .xfer _ _) rfl]
  rfl

theorem recv_withoutInstr (s : State) : (withoutInstr s).recv = (s.recv.1, withoutInstr s.recv.2) :=
  exchange_withoutInstr s s.cfg.fillByte

theorem doPrim_withoutInstr (p : Prim) (s : State) (rx : List Byte) :
    doPrim p (withoutInstr s) rx = (withoutInstr (doPrim p s rx).1, (doPrim p s rx).2) := by
  cases p with
  | poll => simp only [doPrim, poll_withoutInstr, withoutInstr_poll]
  | internal => rfl
  | send b => simp only [doPrim, State.send, exchange_withoutInstr]
  | imgSend => simp only [doPrim, State.send, exchange_withoutInstr]
  | recv => simp only [doPrim, recv_withoutInstr]
  | sel => simp only [doPrim, withoutInstr, State.sel, filter_append_busEvent (e := .sel) rfl]
  | desel => simp only [doPrim, withoutInstr, State.desel, filter_append_busEvent (e := .desel) rfl]
  | wait d => simp only [doPrim, withoutInstr, State.waitUs, State.emit, filter_append_busEvent (e := .wait d) rfl]
  | imgRead i =>
    simp only [doPrim, withoutInstr, State.imgRead, filter_append_busEvent (e := .img _ _) rfl]
    rfl

theorem doTransfer_withoutInstr (t : Transfer) (s : State) (rx : List Byte) (rest : List Micro) :
    doTransfer t (withoutInstr s) rx rest
      = (withoutInstr (doTransfer t s rx rest).1, (doTransfer t s rx rest).2) := by
  cases t
  case motionTest =>
    have hsame : motionSeen (withoutInstr s).cfg = motionSeen s.cfg := rfl
    simp only [doTransfer, hsame]
    split <;> rfl
  all_goals rfl

theorem doTransfers_withoutInstr (ts : List Transfer) (s : State) (rx : List Byte) (rest : List Micro) :
    doTransfers ts (withoutInstr s) rx rest
      = (withoutInstr (doTransfers ts s rx rest).1, (doTransfers ts s rx rest).2) := by
  induction ts generalizing s rest with
  | nil => rfl
  | cons t ts ih => simp only [doTransfers, doTransfer_withoutInstr, ih]

theorem doMicro_withoutInstr (m : Micro) (ms : List Micro) (s : State) (rx : List Byte) :
    doMicro m ms (withoutInstr s) rx = (withoutInstr (doMicro m ms s rx).1, (doMicro m ms s rx).2) := by
  simp only [doMicro, doPrim_withoutInstr, doTransfers_withoutInstr]

theorem runMicros_withoutInstr (ms : List Micro) (s : State) (rx : List Byte) :
    runMicros ms (withoutInstr s) rx = withoutInstr (runMicros ms s rx) := by
  induction ms generalizing s rx with
  | nil => rfl
  | cons m ms ih =>
    rw [runMicros_cons, runMicros_cons, doMicro_withoutInstr, doPrim_withoutInstr]
    obtain hrest | hcut := doMicro_rest m ms s rx
    · rw [hrest, ih]
    · rw [hcut, runMicros_nil, runMicros_nil]

/-- Where the instrumentation is taken out, a sequence may poll or not. -/
theorem runMicros_pollOps_withoutInstr (c : Config) (rest : List Micro) (s : State) (rx : List Byte) :
    runMicros (pollOps c ++ rest) (withoutInstr s) rx = runMicros rest (withoutInstr s) rx := by
  unfold pollOps
  split
  · rw [List.singleton_append, runMicros_plain, doPrim, poll_withoutInstr]
  · rfl

theorem imageOps_withoutInstr (s : State) (n i : Nat) : imageOps (withoutInstr s).cfg n i = imageOps s.cfg n i := by
  induction n generalizing i with
  | zero => rfl
  | succ n ih =>
    rw [imageOps, imageOps, ih]
    rfl

/-- The sequence of an instruction depends on the instrumentation in its poll only. -/
theorem runMicros_sequenceOf_withoutInstr (burst : Bool) (i : Instr) (s : State) :
    runMicros (sequenceOf (withoutInstr s).cfg burst i) (withoutInstr s) []
      = runMicros (sequenceOf s.cfg burst i) (withoutInstr s) [] := by
  cases i
  case rdmot => simp only [sequenceOf, List.append_assoc, runMicros_pollOps_withoutInstr]; rfl
  case rdburst => simp only [sequenceOf, List.append_assoc, runMicros_pollOps_withoutInstr]; rfl
  case upload n => simp only [sequenceOf, sromFrameOps, imageOps_withoutInstr]; rfl
  case wireSromLoad n => simp only [sequenceOf, sromFrameOps, imageOps_withoutInstr]; rfl
  all_goals rfl

/-- What a command leaves outside the instrumentation is a function of what it finds there. -/
theorem withoutInstr_of_exec {i : Instr} {s t : State} (h : exec i s = .next t) :
    withoutInstr t
      = runMicros (sequenceOf (withoutInstr s).cfg (withoutInstr s).burst i) (withoutInstr s) [] := by
  rw [runMicros_sequenceOf_withoutInstr, runMicros_withoutInstr]
  exact congrArg withoutInstr (runMicros_sequenceOf h).symm

/-- Settles O37: the two runs find the same outside the instrumentation. Where both states have the instrumentation, this
covers SCANRATE too. -/
theorem instrumentationDoesNotInterfere : Obligations.InstrumentationDoesNotInterfere := by
  intro i s s' t t' _ hsame h h'
  rw [withoutInstr_of_exec h, withoutInstr_of_exec h', hsame]

/-! ### `Poll()` -/

/-- The modular difference of two readings, the later of which may have wrapped around (R170). -/
theorem clockDiff_eq {c : Config} {now last : Nat} (hnow : now < 2 ^ c.timerW) (hlast : last < 2 ^ c.timerW) :
    clockDiff c now last = if last ≤ now then now - last else now + 2 ^ c.timerW - last := by
  unfold clockDiff
  rw [Nat.mod_eq_of_lt hlast]
  split
  next hle => rw [Nat.sub_add_comm hle, Nat.add_mod_right, Nat.mod_eq_of_lt (by omega)]
  next hgt => exact Nat.mod_eq_of_lt (by omega)

/-- Settles O21: the cases of `Poll()`, with its test written out. -/
theorem pollCountsAndClosesTheWindow : Obligations.PollCountsAndClosesTheWindow := by
  intro s
  refine ⟨poll_absent s, fun hinstr hlast => ?_⟩
  rw [← clockDiff_eq (clockAt_lt s 0) hlast, List.drop_one]
  split
  next hdue => exact poll_closing s hinstr (decide_eq_true hdue)
  next hearly => exact poll_within s hinstr (decide_eq_false hearly)

/-- A poll uses up one reading of the clock. -/
theorem poll_clockAt {s : State} (hinstr : s.cfg.hasInstr = true)
    (hopen : windowCloses s.cfg (s.clockAt 0) s.scanLast = false) (k : Nat) :
    (poll s).clockAt k = s.clockAt (k + 1) := by
  rw [poll_within s hinstr hopen, State.clockAt, readingOf_tail]
  rfl

/-- Settles O23, by induction on the polls before the last one: each of them adds one to the count and leaves the window's
start, and the rest of the polls see the later readings. -/
theorem windowReportsThePollsItCounted : Obligations.WindowReportsThePollsItCounted := by
  intro k s hinstr hopen hdue
  induction k generalizing s with
  | zero =>
    rw [polls, polls, poll_closing s hinstr hdue]
    exact ⟨rfl, rfl, rfl⟩
  | succ k ih =>
    have hfirst := hopen 0 k.succ_pos
    have hclock := poll_clockAt hinstr hfirst
    have hlast : (poll s).scanLast = s.scanLast := by rw [poll_within s hinstr hfirst]
    have hcount : (poll s).scanCount = (s.scanCount + 1) % 2 ^ s.cfg.countW := by
      rw [poll_within s hinstr hfirst]; rfl
    have hrest := ih (poll s)
    rw [poll_cfg, hlast, hclock, hcount, Nat.add_assoc, Nat.mod_add_mod] at hrest
    have hreport := hrest hinstr (fun j hj => by rw [hclock]; exact hopen (j + 1) (by omega)) hdue
    rwa [Nat.add_assoc, Nat.add_comm 1] at hreport

/-! ### SCANRATE -/

/-- Settles O22: with the instrumentation the command word is not reserved, and the copy is all it does. -/
theorem scanrateCopiesTheSnapshot : Obligations.ScanrateCopiesTheSnapshot := fun _ hinstr => if_pos hinstr

/-- Settles O33: SCANRATE ends only in the copy. -/
theorem scanrateKeepsTheRest : Obligations.ScanrateKeepsTheRest := by
  intro s t h
  obtain ⟨-, rfl⟩ := execScanrate_next h
  exact ⟨rfl, rfl, rfl, rfl, rfl, rfl, rfl, ⟨rfl, rfl, rfl, rfl, rfl⟩, ⟨rfl, rfl, rfl, rfl, rfl, rfl, fun _ => rfl⟩,
    rfl, rfl, rfl, rfl, rfl⟩

end Sys2Proof.Machine
end

section
/-! PROOFS. Laws across the families: what a command sends and how long it waits is a function of the state without the
device's answers (45_cross_family_laws.md R179), and the value of a sample (R175 row 6). -/

namespace Sys2Proof.Machine

open Sys2Proof.Safety

/-! ### The shape of the spec's event sequences

The shape of a sequence is the sequence itself with every answer 0. -/

theorem shape_readFrameEvents (c : Config) (a : Addr) (x v : Byte) :
    (readFrameEvents c a x v).map shapeOf = readFrameEvents c a 0 0 := rfl

theorem shape_writeFrameEvents (c : Config) (a : Addr) (d x y : Byte) :
    (writeFrameEvents c a d x y).map shapeOf = writeFrameEvents c a d 0 0 := rfl

theorem shape_burstFrameEvents (c : Config) (ans : Nat → Byte) :
    (burstFrameEvents c ans).map shapeOf = burstFrameEvents c (fun _ => 0) := rfl

/-- The image bytes are sent, so they stay in the shape. -/
theorem shape_sromFrameEvents (c : Config) (n : Nat) (byte ans : Nat → Byte) :
    (sromFrameEvents c n byte ans).map shapeOf = sromFrameEvents c n byte (fun _ => 0) := by
  simp only [sromFrameEvents, List.map_append, List.map_flatMap]
  rfl

theorem shape_initEvents (c : Config) (ans : Nat → Byte) :
    (initEvents c ans).map shapeOf = initEvents c (fun _ => 0) := rfl

theorem shape_motionEvents (c : Config) (ans : Nat → Byte) :
    (motionEvents c ans).map shapeOf = motionEvents c (fun _ => 0) := rfl

theorem shape_uploadEvents (c : Config) (n : Nat) (byte ans : Nat → Byte) :
    (uploadEvents c n byte ans).map shapeOf = uploadEvents c n byte (fun _ => 0) := by
  simp only [uploadEvents, List.map_append, shape_writeEvents, shape_readEvents, shape_sromFrameEvents]
  rfl

/-! ### The shape of what an instruction adds to the trace -/

/-- The shape of what `Poll()` adds to the trace (44_instrumentation.md R170). -/
def pollShape (s : State) : List Event :=
  if s.cfg.hasInstr then
    if windowCloses s.cfg (s.clockAt 0) s.scanLast then [.now 0, .diag 0] else [.now 0]
  else []

theorem poll_trace_shape (s : State) : (poll s).trace.map shapeOf = s.trace.map shapeOf ++ pollShape s := by
  unfold pollShape
  cases hinstr : s.cfg.hasInstr with
  | false => simp [poll_absent s hinstr]
  | true =>
    cases hclose : windowCloses s.cfg (s.clockAt 0) s.scanLast with
    | false => simp [poll_within s hinstr hclose, shapeOf]
    | true => simp [poll_closing s hinstr hclose, shapeOf]

/-- The shape of what an instruction adds to the trace; `moved` is the outcome of RDMOT's motion test, the one thing the
device decides (R179). -/
def addedShape (s : State) (moved : Bool) : Instr → List Event
  | .rdreg a => readEvents s.cfg a 0 0
  | .wrreg a d => writeEvents s.cfg a d 0 0
  | .getcpi => readEvents s.cfg s.cfg.regCpi 0 0
  | .setcpi d => writeEvents s.cfg s.cfg.regCpi (clampCpi s.cfg d) 0 0
  | .init => initEvents s.cfg (fun _ => 0)
  | .upload n => uploadEvents s.cfg n.toNat (fun i => s.imageByte i i) (fun _ => 0)
  | .rdmot =>
    pollShape s ++ if moved then motionEvents s.cfg (fun _ => 0) else readEvents s.cfg s.cfg.regMotion 0 0
  | .rdburst =>
    pollShape s ++ (if s.burst then [] else writeEvents s.cfg s.cfg.regMotionBurst s.cfg.burstEntryValue 0 0)
      ++ burstFrameEvents s.cfg (fun _ => 0) ++ [.wait s.cfg.tBurstGap]
  | .scanrate => []
  | .wireRead a => readFrameEvents s.cfg a 0 0
  | .wireWrite a d => writeFrameEvents s.cfg a d 0 0
  | .wireBurstRead => burstFrameEvents s.cfg (fun _ => 0)
  | .wireSromLoad n => sromFrameEvents s.cfg n.toNat (fun i => s.imageByte i i) (fun _ => 0)

/-- Only RDMOT's shape depends on the motion test. -/
theorem addedShape_of_ne_rdmot {i : Instr} (hi : i ≠ .rdmot) (s : State) (moved moved' : Bool) :
    addedShape s moved i = addedShape s moved' i := by
  cases i
  case rdmot => exact absurd rfl hi
  all_goals rfl

/-- The device's coming answers are no part of the shape. -/
theorem addedShape_withDevice (i : Instr) (s : State) (moved : Bool) (dev : List Byte) (drawn : Nat) :
    addedShape { s with dev := dev, devDrawn := drawn } moved i = addedShape s moved i := rfl

/-- Events at the end of the trace add their shape to its shape. -/
theorem trace_shape_of_append {s t : State} {es shape : List Event} (htrace : t.trace = s.trace ++ es)
    (hshape : es.map shapeOf = shape) : t.trace.map shapeOf = s.trace.map shapeOf ++ shape := by
  rw [htrace, List.map_append, hshape]

theorem rdmot_trace_shape {s t : State} (h : exec .rdmot s = .next t) :
    t.trace.map shapeOf = s.trace.map shapeOf ++ addedShape s (motionSeen s.cfg (s.answer 1)) .rdmot := by
  obtain ⟨hcfg, -, -, -, hanswer⟩ := poll_keeps s
  have hstill := exec_rdmot_still (s := s) rfl
  have hmoved := exec_rdmot_moved (s := s) rfl
  rw [hcfg, hanswer, ne_eq, ← motionSeen_iff, Bool.not_eq_true] at hstill
  rw [hcfg, hanswer, ← motionSeen_iff] at hmoved
  rw [addedShape, ← List.append_assoc, ← poll_trace_shape]
  cases hseen : motionSeen s.cfg (s.answer 1) with
  | false =>
    obtain rfl := exec_next_unique (hstill hseen) h
    exact trace_shape_of_append rfl (shape_readEvents ..)
  | true =>
    obtain rfl := exec_next_unique (hmoved hseen) h
    exact trace_shape_of_append rfl (shape_motionEvents ..)

theorem rdburst_trace_shape {s t : State} (h : exec .rdburst s = .next t) (moved : Bool) :
    t.trace.map shapeOf = s.trace.map shapeOf ++ addedShape s moved .rdburst := by
  obtain ⟨hin, hout⟩ := rdburstStreamsMotion s (poll s) rfl
  simp only [addedShape, ← List.append_assoc, ← poll_trace_shape]
  cases hburst : s.burst with
  | false =>
    obtain rfl := exec_next_unique (hout hburst) h
    simp [busDone, shape_writeEvents, shape_burstFrameEvents, shapeOf]
  | true =>
    obtain rfl := exec_next_unique (hin hburst) h
    simp [busDone, shape_burstFrameEvents, shapeOf]

/-- The trace after any instruction, up to the environment's answers. -/
theorem exec_trace_shape {i : Instr} {s t : State} (h : exec i s = .next t) :
    t.trace.map shapeOf = s.trace.map shapeOf ++ addedShape s (motionSeen s.cfg (s.answer 1)) i := by
  cases i with
  | rdreg a =>
    obtain rfl := exec_next_unique (rdregReadsOneRegister a s) h
    exact trace_shape_of_append rfl (shape_readEvents ..)
  | wrreg a d =>
    obtain rfl := exec_next_unique (wrregWritesOneRegister a d s) h
    exact trace_shape_of_append rfl (shape_writeEvents ..)
  | getcpi =>
    rw [exec_getcpi_eq_rdreg] at h
    obtain rfl := exec_next_unique (rdregReadsOneRegister s.cfg.regCpi s) h
    exact trace_shape_of_append rfl (shape_readEvents ..)
  | setcpi d =>
    rw [exec_setcpi_eq_wrreg] at h
    obtain rfl := exec_next_unique (wrregWritesOneRegister s.cfg.regCpi (clampCpi s.cfg d) s) h
    exact trace_shape_of_append rfl (shape_writeEvents ..)
  | init =>
    obtain rfl := exec_next_unique (exec_init_eq s) h
    exact trace_shape_of_append rfl (shape_initEvents ..)
  | upload n =>
    obtain rfl := exec_next_unique (exec_upload_eq n s) h
    exact trace_shape_of_append rfl (shape_uploadEvents ..)
  | rdmot => exact rdmot_trace_shape h
  | rdburst => exact rdburst_trace_shape h _
  | scanrate =>
    obtain ⟨-, rfl⟩ := execScanrate_next h
    exact (List.append_nil _).symm
  | wireRead a =>
    obtain rfl := exec_next_unique (Frames.readFrameEvents a s) h
    exact trace_shape_of_append rfl (shape_readFrameEvents ..)
  | wireWrite a d =>
    obtain rfl := exec_next_unique (Frames.writeFrameEvents a d s) h
    exact trace_shape_of_append rfl (shape_writeFrameEvents ..)
  | wireBurstRead =>
    obtain rfl := exec_next_unique (Frames.burstReadFrameEvents s) h
    exact trace_shape_of_append rfl (shape_burstFrameEvents ..)
  | wireSromLoad n =>
    obtain rfl := exec_next_unique (Frames.sromLoadFrameEvents n s) h
    exact trace_shape_of_append rfl (shape_sromFrameEvents ..)

/-- Settles O36: both runs add the shape that the rest of the state and, for RDMOT, the motion test fix. -/
theorem traceShapeIgnoresTheDevice : Obligations.TraceShapeIgnoresTheDevice := by
  intro i s t u dev drawn ht hu htest
  rw [exec_trace_shape ht, exec_trace_shape hu, addedShape_withDevice]
  refine congrArg (s.trace.map shapeOf ++ ·) ?_
  by_cases hi : i = .rdmot
  · exact congrArg (addedShape s · i) (htest hi)
  · exact addedShape_of_ne_rdmot hi ..

/-! ### The value of a sample -/

/-- No bit of the low byte reaches the high half (R175 row 6). -/
theorem joinBytes_toNat (hi lo : Byte) : (joinBytes hi lo).toNat = 256 * hi.toNat + lo.toNat := by
  rw [joinBytes, toNat_append_eq]
  omega

/-- The model's test and the library's both ask for bit 15. -/
theorem sint16_eq_toInt (v : Half) : sint16 v = v.toInt := by
  have hsign : v.toNat < 0x8000 ↔ 2 * v.toNat < 2 ^ 16 := by omega
  rw [sint16, if_congr hsign rfl rfl]
  exact (BitVec.toInt_eq_toNat_cond v).symm

/-- Settles O28: the sign of the joined number is the sign of the high byte, whatever the low byte is. -/
theorem sampleIsTwosComplementOfJoinedBytes : Obligations.SampleIsTwosComplementOfJoinedBytes := by
  intro hi lo
  have hlo := lo.isLt
  have hsign : 256 * hi.toNat + lo.toNat < 0x8000 ↔ hi.toNat < 128 := by omega
  refine ⟨joinBytes_toNat hi lo, ?_, sint16_eq_toInt _⟩
  rw [sint16, joinBytes_toNat, if_congr hsign rfl rfl]
  push_cast
  rfl

end Sys2Proof.Machine
end

section
/-! PROOFS. Completion (60_exceptions.md R180, 45_cross_family_laws.md R115): no instruction of the configuration stops short
of a next state, so a step can fail only where the decoder does (30_encoding.md R86). -/

namespace Sys2Proof.Machine

/-- Only SCANRATE tests the configuration; every other instruction ends in its last state, whatever the device answers. -/
theorem exists_exec_next_of_wf {i : Instr} {s : State} (hwf : i.wf s.cfg = true) : ∃ t, exec i s = .next t := by
  cases i
  case scanrate => exact ⟨_, scanrateCopiesTheSnapshot s hwf⟩
  all_goals exact ⟨_, rfl⟩

/-- A request that decodes is one of the configuration's instructions, which runs or starts to run. -/
theorem offer_cases (r : Request) (s : State) :
    (∃ t, offer r s = .next t) ∨
    ∃ why, decode s.cfg r = .error why ∧ offer r s = .refused (.reserved why) := by
  cases hdec : decode s.cfg r with
  | error why => exact .inr ⟨why, rfl, by simp [offer, hdec]⟩
  | ok i =>
    obtain ⟨-, hwf⟩ := Encoding.decodedRequestIsItsEncoding s.cfg r i hdec
    obtain ⟨t, hexec⟩ := exists_exec_next_of_wf (s := s.latch r) (by simpa using hwf)
    left
    cases hgrain : s.grain with
    | command => exact ⟨t, by simp [offer, hdec, hgrain, hexec]⟩
    | primitive => exact ⟨startCommand i (s.latch r), by simp [offer, hdec, hgrain]⟩

theorem step_reset {s : State} (hrst : s.drive.rst = true) : step s = .next s.takeDrive.applyReset := by
  simp [step, cycle, hrst]

/-- Settles O34: of the cases of a step, only an offered request can be refused. -/
theorem everyInstructionRunsToItsEnd : Obligations.EveryInstructionRunsToItsEnd := by
  refine ⟨fun i s hwf => exists_exec_next_of_wf hwf, fun s => ?_⟩
  cases hrst : s.drive.rst with
  | true => exact .inl ⟨_, step_reset hrst⟩
  | false =>
    cases hseq : s.seq with
    | run k rest rx => exact .inl ⟨_, step_running hrst hseq⟩
    | idle =>
      cases hreq : s.drive.request with
      | none => exact .inl ⟨_, step_waiting hrst hseq hreq⟩
      | some r =>
        rw [step_offered hrst hseq hreq]
        obtain hnext | ⟨why, hdec, hrefused⟩ := offer_cases r s.takeDrive
        · exact .inl hnext
        · exact .inr ⟨rfl, r, why, rfl, by simpa using hdec, hrefused⟩

end Sys2Proof.Machine
end

section
/-! PROOFS. The reset (70_reset_and_hazards.md R200, R201): its values, from any state and in the state after reset, which
meets the invariant. -/

namespace Sys2Proof.Machine

open Sys2Proof.Safety

/-- Settles O40: the step is the reset of the state that the drive leaves, and a block whose `SEQ` is idle is ready. -/
theorem resetAbandonsWhateverRuns : Obligations.ResetAbandonsWhateverRuns := by
  intro s hrst
  have hbusy : s.takeDrive.applyReset.busy = false := (not_busy_iff _).mpr (by simp)
  refine ⟨s.takeDrive.applyReset, step_reset hrst, ?_⟩
  simp [State.cmdReady, hbusy]

/-- Settles O41: each value as `State.reset` writes it. -/
theorem resetStateHasTheSpecsValues : Obligations.ResetStateHasTheSpecsValues :=
  ⟨rfl, rfl, rfl, rfl, rfl, rfl, rfl, rfl, rfl⟩

/-- Settles O49: no event yet, the chip select released, the counters 0, the free rate cut to its width, no image. -/
theorem resetMeetsTheInvariant : Obligations.ResetMeetsTheInvariant where
  framed := rfl
  released := rfl
  count := Nat.two_pow_pos _
  snapshot := Nat.two_pow_pos _
  last := Nat.two_pow_pos _
  rate := Nat.mod_lt _ (Nat.two_pow_pos _)
  image := rfl

end Sys2Proof.Machine
end

section
/-! PROOFS. Waits and exchanges (70_reset_and_hazards.md R220): the totals of a command are those of the shape it adds to
the trace, and every exchange uses up one of the device's answers. -/

namespace Sys2Proof.Machine

open Sys2Proof.Safety

/-! ### The two totals of a trace -/

/-- The sum of the waits and the number of exchanges: the two measures of R220. -/
def totals (es : List Event) : Nat × Nat := (waitSum es, xferCount es)

theorem totals_nil : totals [] = 0 := rfl

theorem totals_append (xs ys : List Event) : totals (xs ++ ys) = totals xs + totals ys := by
  simp [totals]

/-- The totals do not depend on what the environment answered. -/
theorem totals_map_shapeOf (es : List Event) : totals (es.map shapeOf) = totals es := by
  simp only [totals, Prod.mk.injEq]
  induction es with
  | nil => exact ⟨rfl, rfl⟩
  | cons e es ih =>
    obtain ⟨hwait, hxfer⟩ := ih
    cases e <;> simp [shapeOf, waitSum, xferCount, hwait, hxfer]

/-! ### The totals of the spec's event sequences -/

section Sequences

variable (c : Config)

theorem totals_readFrameEvents (a : Addr) (x v : Byte) :
    totals (readFrameEvents c a x v) = (c.tRdSettle + c.tRdHold, 2) := rfl

theorem totals_writeFrameEvents (a : Addr) (d x y : Byte) : totals (writeFrameEvents c a d x y) = (c.tWrHold, 2) := rfl

theorem totals_burstFrameEvents (ans : Nat → Byte) : totals (burstFrameEvents c ans) = (c.tBurstSettle, 7) := rfl

theorem totals_sromFrameEvents (n : Nat) (byte ans : Nat → Byte) :
    totals (sromFrameEvents c n byte ans) = (c.tLoadCmd + n * c.tLoadByte, 1 + n) := by
  simp [totals, Nat.add_comm]

theorem totals_readEvents (a : Addr) (x v : Byte) :
    totals (readEvents c a x v) = (c.tRdSettle + c.tRdHold + c.tRdGap, 2) := by
  simp [totals]

theorem totals_writeEvents (a : Addr) (d x y : Byte) :
    totals (writeEvents c a d x y) = (c.tWrHold + c.tWrGap, 2) := rfl

theorem totals_wait (d : Nat) : totals [.wait d] = (d, 0) := rfl

theorem totals_initEvents (ans : Nat → Byte) :
    totals (initEvents c ans)
      = (2 * (c.tWrHold + c.tWrGap) + c.tReset + 7 * (c.tRdSettle + c.tRdHold + c.tRdGap), 18) := by
  have hsel : totals [.sel] = (0, 0) := rfl
  have hdesel : totals [.desel] = (0, 0) := rfl
  simp only [initEvents, totals_append, totals_readEvents, totals_writeEvents, totals_wait, hsel, hdesel,
    Prod.mk_add_mk, Prod.mk.injEq, and_true]
  omega

theorem totals_uploadEvents (n : Nat) (byte ans : Nat → Byte) :
    totals (uploadEvents c n byte ans)
      = (4 * (c.tWrHold + c.tWrGap) + c.tSromEnGap + c.tLoadCmd + n * c.tLoadByte + c.tLoadEnd
          + (c.tRdSettle + c.tRdHold + c.tRdGap) + c.tUploadEnd, 11 + n) := by
  simp only [uploadEvents, totals_append, totals_readEvents, totals_writeEvents, totals_sromFrameEvents, totals_wait,
    Prod.mk_add_mk, Prod.mk.injEq]
  omega

theorem totals_motionEvents (ans : Nat → Byte) :
    totals (motionEvents c ans) = (5 * (c.tRdSettle + c.tRdHold + c.tRdGap), 10) := by
  simp only [motionEvents, totals_append, totals_readEvents, Prod.mk_add_mk, Prod.mk.injEq, and_true]
  omega

end Sequences

/-- `Poll()` neither waits nor exchanges a byte (44_instrumentation.md R170). -/
theorem totals_pollShape (s : State) : totals (pollShape s) = 0 := by
  unfold pollShape
  split
  · split <;> rfl
  · rfl

/-! ### One answer for each exchange (20_memory.md R66) -/

/-- The instrumentation's events are no exchanges. -/
theorem xferCount_of_no_busEvent {es : List Event} (h : es.filter isBusEvent = []) : xferCount es = 0 := by
  induction es with
  | nil => rfl
  | cons e es ih => cases e <;> simp_all [isBusEvent, xferCount]

/-- `t` comes after `s` with some events more, each exchange among them having used up one answer of the device. -/
def AnswersMatchExchanges (s t : State) : Prop :=
  ∃ es, t.trace = s.trace ++ es ∧ t.devDrawn = s.devDrawn + xferCount es

theorem AnswersMatchExchanges.refl (s : State) : AnswersMatchExchanges s s := ⟨[], (List.append_nil _).symm, rfl⟩

theorem AnswersMatchExchanges.trans {s t u : State} (h : AnswersMatchExchanges s t) (h' : AnswersMatchExchanges t u) :
    AnswersMatchExchanges s u := by
  obtain ⟨es, htrace, hdrawn⟩ := h
  obtain ⟨fs, htrace', hdrawn'⟩ := h'
  refine ⟨es ++ fs, by rw [htrace', htrace, List.append_assoc], ?_⟩
  rw [hdrawn', hdrawn, xferCount_append, Nat.add_assoc]

theorem AnswersMatchExchanges.poll (s : State) : AnswersMatchExchanges s (poll s) := by
  obtain ⟨_, _, _, _, _, es, hpoll, hes⟩ := poll_cases s
  rw [hpoll]
  exact ⟨es, rfl, by rw [xferCount_of_no_busEvent hes, Nat.add_zero]⟩

theorem AnswersMatchExchanges.doPrim (p : Prim) (s : State) (rx : List Byte) :
    AnswersMatchExchanges s (doPrim p s rx).1 := by
  cases p with
  | sel => exact ⟨[.sel], rfl, rfl⟩
  | desel => exact ⟨[.desel], rfl, rfl⟩
  | send b => exact ⟨[.xfer b (s.answer 0)], rfl, rfl⟩
  | recv => exact ⟨[.xfer s.cfg.fillByte (s.answer 0)], rfl, rfl⟩
  | wait d => exact ⟨[.wait d], rfl, rfl⟩
  | imgRead i => exact ⟨[.img i (s.imageByte i 0)], rfl, rfl⟩
  | imgSend => exact ⟨[.xfer (rx.headD 0) (s.answer 0)], rfl, rfl⟩
  | poll => exact .poll s
  | internal => exact .refl s

theorem doTransfer_devDrawn (t : Transfer) (s : State) (rx : List Byte) (rest : List Micro) :
    (doTransfer t s rx rest).1.devDrawn = s.devDrawn := by
  cases t
  case motionTest => simp only [doTransfer]; split <;> rfl
  all_goals rfl

theorem doTransfers_devDrawn (ts : List Transfer) (s : State) (rx : List Byte) (rest : List Micro) :
    (doTransfers ts s rx rest).1.devDrawn = s.devDrawn := by
  induction ts generalizing s rest with
  | nil => rfl
  | cons t ts ih => rw [doTransfers, ih, doTransfer_devDrawn]

theorem AnswersMatchExchanges.doMicro (m : Micro) (ms : List Micro) (s : State) (rx : List Byte) :
    AnswersMatchExchanges s (doMicro m ms s rx).1 := by
  obtain ⟨htrace, -⟩ := doTransfers_keeps m.post (Machine.doPrim m.prim s rx).1 (Machine.doPrim m.prim s rx).2 ms
  rw [AnswersMatchExchanges, Machine.doMicro, htrace, doTransfers_devDrawn]
  exact AnswersMatchExchanges.doPrim m.prim s rx

theorem AnswersMatchExchanges.runMicros (ms : List Micro) (s : State) (rx : List Byte) :
    AnswersMatchExchanges s (runMicros ms s rx) := by
  induction ms generalizing s rx with
  | nil => exact .refl s
  | cons m ms ih =>
    rw [runMicros_cons]
    refine (AnswersMatchExchanges.doMicro m ms s rx).trans ?_
    obtain hgoes | hcut := doMicro_rest m ms s rx
    · rw [hgoes]; exact ih ..
    · rw [hcut]; exact .refl _

/-- A whole command is its sequence run to the end. -/
theorem AnswersMatchExchanges.exec {i : Instr} {s t : State} (h : exec i s = .next t) : AnswersMatchExchanges s t :=
  runMicros_sequenceOf h ▸ .runMicros ..

/-! ### The totals of every instruction -/

/-- The poll adds nothing to RDMOT's totals, and the motion test picks one read or five (43_motion_reader.md R160). -/
theorem totals_addedShape_rdmot (s : State) :
    totals (addedShape s (motionSeen s.cfg (s.answer 1)) .rdmot)
      = if s.answer 1 &&& s.cfg.motionMask = s.cfg.motionExpect
        then (5 * (s.cfg.tRdSettle + s.cfg.tRdHold + s.cfg.tRdGap), 10)
        else (s.cfg.tRdSettle + s.cfg.tRdHold + s.cfg.tRdGap, 2) := by
  simp only [addedShape, totals_append, totals_pollShape, zero_add, motionSeen_iff, apply_ite totals,
    totals_motionEvents, totals_readEvents]

/-- `BURST` decides whether the entry write comes before the frame (43_motion_reader.md R161). -/
theorem totals_addedShape_rdburst (s : State) (moved : Bool) :
    totals (addedShape s moved .rdburst)
      = if s.burst then (s.cfg.tBurstSettle + s.cfg.tBurstGap, 7)
        else (s.cfg.tWrHold + s.cfg.tWrGap + (s.cfg.tBurstSettle + s.cfg.tBurstGap), 9) := by
  simp only [addedShape, totals_append, totals_pollShape, totals_burstFrameEvents, totals_wait, zero_add]
  split
  · simp [totals_nil]
  · simp [totals_writeEvents, Nat.add_assoc]

/-- What an instruction adds to the trace has the totals of its shape. -/
theorem totals_of_exec {i : Instr} {s t : State} (h : exec i s = .next t) :
    totals t.trace = totals s.trace + totals (addedShape s (motionSeen s.cfg (s.answer 1)) i) := by
  rw [← totals_map_shapeOf t.trace, exec_trace_shape h, totals_append, totals_map_shapeOf]

/-- Settles O35: each row of the table is the totals of the instruction's shape, which also count the answers used up. -/
theorem waitAndExchangeTotals : Obligations.WaitAndExchangeTotals := by
  intro i s t h c rd wr bf total
  suffices htotal : totals (addedShape s (motionSeen s.cfg (s.answer 1)) i) = total by
    have htotals : totals t.trace = totals s.trace + total := htotal ▸ totals_of_exec h
    have hwait : waitSum t.trace = waitSum s.trace + total.1 := congrArg Prod.fst htotals
    have hxfer : xferCount t.trace = xferCount s.trace + total.2 := congrArg Prod.snd htotals
    obtain ⟨es, htrace, hdrawn⟩ := AnswersMatchExchanges.exec h
    have hadded : xferCount es = total.2 := by
      rw [htrace, xferCount_append] at hxfer
      exact Nat.add_left_cancel hxfer
    exact ⟨hwait, hxfer, hadded ▸ hdrawn⟩
  dsimp only [addedShape]
  cases i with
  | rdreg a => exact totals_readEvents ..
  | wrreg a d => exact totals_writeEvents ..
  | getcpi => exact totals_readEvents ..
  | setcpi d => exact totals_writeEvents ..
  | init => exact totals_initEvents ..
  | upload n => exact totals_uploadEvents ..
  | rdmot => exact totals_addedShape_rdmot s
  | rdburst => exact totals_addedShape_rdburst s (motionSeen s.cfg (s.answer 1))
  | scanrate => rfl
  | wireRead a => exact totals_readFrameEvents ..
  | wireWrite a d => exact totals_writeFrameEvents ..
  | wireBurstRead => exact totals_burstFrameEvents ..
  | wireSromLoad n => exact totals_sromFrameEvents ..

end Sys2Proof.Machine
end
